-- ==== Sys2Proof/Word.lean ====
section
/-! DEFINITION. The plainest types of the model: bytes of a frame, and a value for each of the four bays. -/

namespace Sys2Proof

/-- One byte of a frame (chapter 10). -/
abbrev Byte := BitVec 8

/-- One value for each bay 1 to 4 (R151). -/
structure PerBay (α : Type) where
  b1 : α
  b2 : α
  b3 : α
  b4 : α
deriving DecidableEq, Repr

/-- The value of a bay. Only bays 1 to 4 exist; any other number reads bay 4, and no caller asks for it. -/
def PerBay.get {α : Type} (q : PerBay α) : Nat → α
  | 1 => q.b1
  | 2 => q.b2
  | 3 => q.b3
  | _ => q.b4

/-- The values with one bay's replaced. -/
def PerBay.set {α : Type} (q : PerBay α) (bay : Nat) (v : α) : PerBay α :=
  match bay with
  | 1 => { q with b1 := v }
  | 2 => { q with b2 := v }
  | 3 => { q with b3 := v }
  | _ => { q with b4 := v }

/-- The same value for every bay. -/
def PerBay.all {α : Type} (v : α) : PerBay α := ⟨v, v, v, v⟩

/-- The values as a list, bay 1 first. -/
def PerBay.toList {α : Type} (q : PerBay α) : List α := [q.b1, q.b2, q.b3, q.b4]

end Sys2Proof
end

