-- ==== Sys2Proof/Syntax.lean ====
section
/-! DEFINITION. The commands of the CN418, one constructor of Instr for each row of spec/opcode_table.json, and the data
they carry: runway frames (chapter 10), crane port frames and requests (chapter 9), samples (R126, R206). Identifiers,
counts and unsigned fields are Nat, signed quantities are Int; the widths of chapter 10 stand in the codec and in
WellFormed. -/

namespace Sys2Proof

/-! ## Names shared by the blocks -/

/-- The node states of R14. -/
inductive NodeState where
  | reset | config | joining | running | parked | resuming | fault
deriving DecidableEq, Repr

/-- The node states a BEACON may state (10.2): a node in RESUMING states RUNNING (R23). -/
inductive LineState where
  | joining | running | parked | fault
deriving DecidableEq, Repr

/-- The load class (R132). -/
inductive LoadClass where
  | empty | loaded | overload
deriving DecidableEq, Repr

/-- The grip state of a position sample (R206). -/
inductive Grip where
  | opened | closed | moving
deriving DecidableEq, Repr

/-- A claim target (R76). `other` is what a CLAIM or RELEASE names with a target kind byte that is neither 0 nor 1: R219
does not judge that byte, and R76 takes a peer's claim whatever it names. -/
inductive Target where
  | zone (id : Nat)
  | slot (id : Nat)
  | other (kind id : Nat)
deriving DecidableEq, Repr

/-- The content of a slot (R101). -/
inductive Content where
  | unknown | empty | occupied
deriving DecidableEq, Repr

/-- The coil fields of a slot record or a NOTICE (R101, R108), each optional. -/
structure Coil where
  id : Option Nat := none
  weight : Option Nat := none
  diameter : Option Nat := none
  width : Option Nat := none
deriving DecidableEq, Repr

/-- The strap pins and the eighth-crane pin as read (R16). -/
structure Straps where
  value : Fin 8
  eighthTied : Bool
deriving DecidableEq, Repr

/-! ## Runway frames (10.2) -/

/-- A claim entry of a BEACON (R85): state HELD or ASKING, and the truck record version of a TRUCK_BAY zone. -/
structure ClaimEntry where
  target : Target
  held : Bool
  prio : Nat
  version : Option Nat
deriving DecidableEq, Repr

/-- The fields of a BEACON (R7). -/
structure Beacon where
  state : LineState
  valid : Bool
  x : Int
  vx : Int
  age : Nat
  loadClass : LoadClass
  noticeSeq : Nat
  claims : List ClaimEntry
deriving DecidableEq, Repr

/-- The fields of a PROFILE (R8). -/
structure Profile where
  left : Nat
  right : Nat
  vmaxEmpty : Nat
  decEmpty : Nat
  vmaxLoaded : Nat
  decLoaded : Nat
  reaction : Nat
  creep : Nat
deriving DecidableEq, Repr

/-- The kinds of a NOTICE (R108). -/
inductive NoticeKind where
  | pick | place | foundEmpty | foundOccupied | setBlock | clearBlock
deriving DecidableEq, Repr

/-- The fields of a NOTICE (R12). -/
structure Notice where
  seq : Nat
  slot : Nat
  kind : NoticeKind
  coil : Coil
deriving DecidableEq, Repr

/-- One trailer position (R151): the shares of the three groups in per-mille, its limit, its place and its load. -/
structure Position where
  share1 : Nat
  share2 : Nat
  share3 : Nat
  maxKg : Nat
  xOffset : Nat
  y : Nat
  loaded : Bool
  coilId : Option Nat
  weight : Option Nat
deriving DecidableEq, Repr

/-- What a truck brings (R151): the content of a TRUCK_ARRIVE, and of a record less its sums. -/
structure TruckData where
  truckId : Nat
  allowance : Nat
  deckHeight : Nat
  limits : List Nat
  positions : List Position
  plan : List Nat
deriving DecidableEq, Repr

/-- The content of a truck record (R151): NO_TRUCK, or PRESENT_HOLD or READY with every field and the sums of R152. -/
inductive TruckContent where
  | noTruck
  | present (ready : Bool) (data : TruckData) (cumulative : Nat) (loads : List Nat)
deriving DecidableEq, Repr

/-- What a runway frame carries, by its kind (10.2). -/
inductive FrameBody where
  | join (pattern : Nat) (x : Int)
  | welcome (pattern : Nat) (joiner : Nat)
  | beacon (b : Beacon)
  | profile (p : Profile)
  | claim (target : Target) (prio : Nat)
  | release (target : Target)
  | notice (n : Notice)
  | truckState (bay : Nat) (version : Nat) (content : TruckContent)
deriving DecidableEq, Repr

/-- A runway frame: the sender's crane number and serial, and the payload (10.2). -/
structure Frame where
  sender : Nat
  serial : Nat
  body : FrameBody
deriving DecidableEq, Repr

/-! ## Requests (9.2) -/

/-- The kinds of a move order (R173). -/
inductive OrderKind where
  | store | relocate | load | unload
deriving DecidableEq, Repr

/-- The tier preference of an area (R173). -/
inductive Tier where
  | any | lowerOnly
deriving DecidableEq, Repr

/-- The source of an order (R173). -/
inductive Source where
  | slot (id : Nat)
  | bay (bay : Nat) (position : Nat)
deriving DecidableEq, Repr

/-- A destination (R173). A tier preference of none is a code that names no preference. -/
inductive Dest where
  | slot (id : Nat)
  | area (r1 r2 : Nat) (tier : Option Tier)
  | bay (bay : Nat)
deriving DecidableEq, Repr

/-- The fields of an order (R173). A kind of none is a code that names no kind. -/
structure Order where
  id : Nat
  prio : Nat
  kind : Option OrderKind
  source : Source
  dest : Dest
  alt : Option Dest
  coil : Nat
  weight : Option Nat
  diameter : Option Nat
  width : Option Nat
deriving DecidableEq, Repr

/-- The parameters of the configuration image with their indices (R213). Rows, lanes and zones are numbered from 1;
a Bool index is the class LOADED when true. -/
inductive Param where
  | runwayLength | spanLength | leftExtent | rightExtent
  | gantryVmax (loaded : Bool) | gantryDec (loaded : Bool)
  | trolleyVmax (loaded : Bool) | trolleyDec (loaded : Bool) | hoistVmax (loaded : Bool)
  | reaction | creep | gapPeer | gapWall | clearance | tongHang | zMin | zMax | travelHeight
  | unknownLeft | unknownRight | unknownVmax | unknownDec | unknownReaction
  | zoneCount
  | zoneKind (z : Nat) | zoneXStart (z : Nat) | zoneXEnd (z : Nat) | zoneYStart (z : Nat) | zoneYEnd (z : Nat)
  | zoneCeiling (z : Nat) | zoneBay (z : Nat)
  | rowCount | saddleHeight | upperSeat | dmax | saddleMax | columnHalf | tierTolerance | upperOversize
  | widthTolerance | upperRatio | upperPenalty
  | rowCentre (r : Nat) | rowHalf (r : Nat) | lowerCount (r : Nat)
  | laneY (r : Nat) (p : Nat)
  | scaleSpan | calibratedZero | zeroWindow | tare | division | ratedCapacity | toleranceKg | tolerancePm
deriving DecidableEq, Repr

/-- One entry of a CONFIGURE (R214). A parameter of none is one the part does not know. -/
structure ConfigEntry where
  param : Option Param
  value : Int
deriving DecidableEq, Repr

/-- A request with its arguments (9.2). The byte layouts of request payloads are not tabled (chapter 10), so a request
is held as data beside its bytes. -/
inductive Request where
  | configure (entries : List ConfigEntry)
  | start
  | restart
  | park
  | unpark
  | submitOrder (o : Order)
  | cancelOrder (id : Nat)
  | redirect (id : Nat) (dest : Dest)
  | truckArrive (bay : Nat) (data : TruckData)
  | truckReady (bay : Nat)
  | truckHold (bay : Nat)
  | truckDepart (bay : Nat)
  | mapLoad (slot : Nat) (content : Option Content) (coil : Coil)
  | slotBlock (slot : Nat)
  | slotUnblock (slot : Nat)
  | claimForceClear (n : Nat)
  | weighVerifyZero
  | weighVerifySpan (mass : Nat)
  | readStatus
  | readSlot (slot : Nat)
  | readSlots (start count : Nat)
  | readPeer (n : Nat)
  | readTruck (bay : Nat)
  | readOrder (id : Nat)
deriving DecidableEq, Repr

/-- The request kinds, by the codes 1 to 24 of 10.3. -/
inductive ReqKind where
  | configure | start | restart | park | unpark | submitOrder | cancelOrder | redirect
  | truckArrive | truckReady | truckHold | truckDepart | mapLoad | slotBlock | slotUnblock | claimForceClear
  | weighVerifyZero | weighVerifySpan | readStatus | readSlot | readSlots | readPeer | readTruck | readOrder
deriving DecidableEq, Repr

/-- A frame received on the crane port other than POSITION (R199): its bytes, from which CRC, kind, length and sequence
are read, and the request that its payload spells by the payload layouts that chapter 10 does not table; none where the
payload is not well formed for its kind (R219; log entry 8). -/
structure CpFrame where
  bytes : List Byte
  request : Option Request
deriving DecidableEq, Repr

/-- The fields of a POSITION payload (10.3). -/
structure PositionFrame where
  seq : Nat
  x : Int
  y : Int
  z : Int
  vx : Int
  vy : Int
  vz : Int
  az : Int
  gripCode : Nat
deriving DecidableEq, Repr

/-! ## The commands -/

/-- The commands: one constructor for each row of spec/opcode_table.json, in the table's order. A request's arguments
stand in the request buffer, from which the command takes it (R200); RX_* commands carry the frame received. -/
inductive Instr where
  | powerOn
  | resetPinAssert
  | resetRelease (straps : Straps)
  | lineBusy
  | lineIdle
  | txWaitExpiry
  | txBitMismatch
  | txFrameEnd
  | runwayFrameBad (bytes : List Byte)
  | rxJoin (n serial pattern : Nat) (x : Int)
  | rxWelcome (n serial pattern joiner : Nat)
  | rxBeacon (n serial : Nat) (b : Beacon)
  | rxProfile (n serial : Nat) (p : Profile)
  | rxClaim (n serial : Nat) (target : Target) (prio : Nat)
  | rxRelease (n serial : Nat) (target : Target)
  | rxNotice (n serial : Nat) (notice : Notice)
  | rxTruckState (n serial bay version : Nat) (content : TruckContent)
  | beaconTimerExpiry
  | profileTimerExpiry
  | profileDelayExpiry
  | welcomeDelayExpiry
  | joinRepeatExpiry
  | joinTimerExpiry
  | resumeTimerExpiry
  | lineTxFail
  | peerStale (n : Nat)
  | peerLost (n : Nat)
  | settleTimerExpiry (target : Target)
  | refreshTimerExpiry
  | requestTimerExpiry (bay : Nat)
  | sessionTimeout
  | captureTimerExpiry
  | loadCellLost
  | positionStale
  | orderWaiting
  | loadCellSample (raw : Int) (saturated : Bool)
  | loadCellBadWord
  | cpFrameReceived (f : CpFrame)
  | positionSample (bytes : List Byte)
  | unknownRequestTaken
  | configure
  | start
  | restart (straps : Straps)
  | park
  | unpark
  | submitOrder
  | cancelOrder
  | redirect
  | truckArrive
  | truckReady
  | truckHold
  | truckDepart
  | mapLoad
  | slotBlock
  | slotUnblock
  | claimForceClear
  | weighVerifyZero
  | weighVerifySpan
  | readStatus
  | readSlot
  | readSlots
  | readPeer
  | readTruck
  | readOrder
  | slotStreamRecord
  | outputRecordSent
deriving DecidableEq, Repr

end Sys2Proof
end

