-- ==== Sys2Proof/Machine/Records.lean ====
section
/-! DEFINITION. The data the blocks keep and the records they send: the configuration image (R213), permits (R47), claims
(R77), slots (R101), weighing (R134, R139, R141), trucks (R156), orders (R174), events, responses and read contents. -/

namespace Sys2Proof.Machine

/-! ## Configuration image (R213, R74, R97) -/

/-- A value for the EMPTY class and one for the LOADED class (R48). -/
structure ByClass where
  empty : Int
  loaded : Int
deriving DecidableEq, Repr

/-- The zone kinds of R74. -/
inductive ZoneKind where
  | exclusive | truckBay | slow | noLoad
deriving DecidableEq, Repr

/-- A zone of the zone table (R74). A field its kind does not use is carried and ignored. -/
structure Zone where
  id : Nat
  kind : ZoneKind
  x0 : Int
  x1 : Int
  y0 : Int
  y1 : Int
  ceiling : Int
  bay : Nat
deriving DecidableEq, Repr

/-- A row of the store (R97); its lower count is the number of its lanes. -/
structure Row where
  centre : Int
  half : Int
  lanes : List Int
deriving DecidableEq, Repr

/-- The validated image as the blocks read it (R213, R216). `unknown` holds the unknown-peer values for both classes
(R36). -/
structure Image where
  runway : Int
  span : Int
  left : Int
  right : Int
  gantryVmax : ByClass
  gantryDec : ByClass
  trolleyVmax : ByClass
  trolleyDec : ByClass
  hoistVmax : ByClass
  reaction : Int
  creep : Int
  gapPeer : Int
  gapWall : Int
  clearance : Int
  tongHang : Int
  zMin : Int
  zMax : Int
  travelHeight : Int
  unknown : Profile
  zones : List Zone
  rows : List Row
  saddleHeight : Int
  upperSeat : Int
  dmax : Int
  saddleMax : Int
  columnHalf : Int
  tierTolerance : Int
  upperOversize : Int
  widthTolerance : Int
  upperRatio : Int
  upperPenalty : Int
  scaleSpan : Int
  calibratedZero : Int
  zeroWindow : Int
  tare : Int
  division : Int
  ratedCapacity : Int
  toleranceKg : Int
  tolerancePm : Int
deriving DecidableEq, Repr

/-- The state of the image (R214). -/
inductive ImageState where
  | none | partly | validated
deriving DecidableEq, Repr

/-- The check of START that failed (R215); a geometry check carries its number (R98). -/
inductive ImageCheck where
  | missing | range | extents | zRange | travelHeight | zone | geometry (number : Nat)
deriving DecidableEq, Repr

/-! ## RLC (chapter 1) -/

/-- Why the node last started (R26). -/
inductive StopCause where
  | powerOn | resetPin | restartRequest | restartFromFault
deriving DecidableEq, Repr

/-- The last fault cause (R26). -/
inductive FaultCause where
  | none | noNumber | duplicateNumber
deriving DecidableEq, Repr

/-- A frame in the transmit queue: BEACON and PROFILE are filled in when an attempt starts, every other frame carries
the content it was queued with (R1). -/
inductive TxItem where
  | beacon
  | profile
  | fixed (body : FrameBody)
deriving DecidableEq, Repr

/-- Line access of the head frame (R2): none without a head frame; the idle count and the drawn backoff running; the
count suspended by a busy line with the same backoff; or the frame being sent. -/
inductive Access where
  | none
  | counting (backoff : Nat)
  | suspended (backoff : Nat)
  | sending
deriving DecidableEq, Repr

/-- A NOTICE in its repeat window (R12): `left` sends still to be queued with coming BEACONs. -/
structure NoticeWindow where
  notice : Notice
  left : Nat
deriving DecidableEq, Repr

/-- A TRUCK_STATE window of a bay (R13): change or release, and the sends still to be queued. -/
structure TruckWindow where
  release : Bool
  left : Nat
deriving DecidableEq, Repr

/-- A WELCOME waiting for its random delay (R10). -/
structure WelcomeDelay where
  due : Nat
  pattern : Nat
  joiner : Nat
deriving DecidableEq, Repr

/-! ## PTB (chapter 2) -/

/-- The liveness of a peer (R38). -/
inductive Liveness where
  | live | stale | lost
deriving DecidableEq, Repr

/-- An entry of a peer's claims copy with the time it was last stated (R28). -/
structure CopyEntry where
  target : Target
  held : Bool
  prio : Nat
  stated : Nat
deriving DecidableEq, Repr

/-- A peer record (R28). The silence timer is the time since `heard`. -/
structure Peer where
  n : Nat
  serial : Nat
  nodeState : Option LineState
  pattern : Option Nat
  valid : Bool
  x : Int
  vx : Int
  age : Nat
  arrival : Nat
  loadClass : Option LoadClass
  noticeSeq : Option Nat
  profile : Option Profile
  liveness : Liveness
  heard : Nat
  cleared : Bool
  claims : List CopyEntry
  versions : PerBay Nat
  outOfField : Bool
deriving DecidableEq, Repr

/-- A notice tracking entry (R42). -/
structure Track where
  n : Nat
  serial : Nat
  last : Option Nat
deriving DecidableEq, Repr

/-! ## EPU (chapter 3) -/

/-- The limiting causes of R69. -/
inductive Cause where
  | state | staleSample | peer (n : Nat) | runwayEnd | spanEnd | zone (z : Nat) | noLoad (z : Nat) | row (r : Nat)
  | column (c : Nat) | zLimit | overload | conflict (z : Nat) | ceiling (z : Nat) | contact | vmax
deriving DecidableEq, Repr

/-- A permit with its cause (R47). -/
structure Permit where
  speed : Int
  cause : Cause
deriving DecidableEq, Repr

/-- The six permits (R47). -/
structure PermitSet where
  gantryPlus : Permit
  gantryMinus : Permit
  trolleyPlus : Permit
  trolleyMinus : Permit
  hoistUp : Permit
  hoistDown : Permit
deriving DecidableEq, Repr

/-- The free distances of the four travel permits (R47). -/
structure FreeSet where
  gantryPlus : Int
  gantryMinus : Int
  trolleyPlus : Int
  trolleyMinus : Int
deriving DecidableEq, Repr

/-- The permit record (R47); the free distances are absent while no validated image is held. -/
structure PermitRecord where
  permits : PermitSet
  free : Option FreeSet
deriving DecidableEq, Repr

/-- An obstacle counted in one direction: its free distance and its cause (R53, R69). -/
structure Obstacle where
  d : Int
  cause : Cause
deriving DecidableEq, Repr

/-- The obstacle list of a computation, by travel direction (R53). -/
structure Obstacles where
  gantryPlus : List Obstacle
  gantryMinus : List Obstacle
  trolleyPlus : List Obstacle
  trolleyMinus : List Obstacle
deriving DecidableEq, Repr

/-! ## CLU (chapter 4) -/

/-- The state of an own claim (R77). -/
inductive ClaimState where
  | asking | held | waiting
deriving DecidableEq, Repr

/-- A holder of an own claim (R77): the active order, or the truck request of a bay. -/
inductive Holder where
  | order
  | truck (bay : Nat)
deriving DecidableEq, Repr

/-- An entry of the own claim list (R77). The settle timer is the time since `askedAt`. -/
structure OwnClaim where
  target : Target
  state : ClaimState
  prio : Nat
  askedAt : Nat
  holders : List Holder
deriving DecidableEq, Repr

/-- The answer to an ask (R78). -/
inductive AskAnswer where
  | badTarget | badState | listFull | answered (st : ClaimState)
deriving DecidableEq, Repr

/-! ## SMU (chapter 5) -/

/-- What last changed a slot record (R101). -/
inductive ChangeSource where
  | own | peer (n : Nat) | mapLoad | landing
deriving DecidableEq, Repr

/-- What SLOT_CHANGED names as its source (R102): a change source, or BLOCK for a change of the blocked flag. -/
inductive ChangeReport where
  | source (s : ChangeSource)
  | block
deriving DecidableEq, Repr

/-- A slot record (R101). -/
structure SlotRec where
  content : Content
  coil : Coil
  blocked : Bool
  disputed : Bool
  source : Option ChangeSource
deriving DecidableEq, Repr

/-- A slot record under its id (R99). -/
structure Slot where
  id : Nat
  data : SlotRec
deriving DecidableEq, Repr

/-- The answers of the pick test (R114). -/
inductive PickAnswer where
  | noSlot | notOccupied (c : Content) | blocked | claimed (n : Nat) | buried (ids : List Nat) | eligible
deriving DecidableEq, Repr

/-- The failing tests of the candidate test, in the order of R122. -/
inductive CandidateFail where
  | absent | notEmpty | blocked | disputed | excluded | peerClaim | ownClaim | outOfReach | zoneHeld | noLoad
  | diameter | buriedBelow | support | tolerance | width | weight
deriving DecidableEq, Repr

/-! ## WGU (chapter 6) -/

/-- The causes of LOCKED (R141). -/
inductive LockCause where
  | zeroDrift | spanFail | sensor
deriving DecidableEq, Repr

/-- The weigh state other than CAPTURING (R141). -/
inductive WeighBase where
  | unzeroed | ready | locked (c : LockCause) | verifyZeroDone
deriving DecidableEq, Repr

/-- The kinds of a zero capture (R141). -/
inductive CaptureKind where
  | auto | verify
deriving DecidableEq, Repr

/-- The weigh state as reported (R142). -/
inductive WeighView where
  | base (b : WeighBase)
  | capturing (k : CaptureKind)
deriving DecidableEq, Repr

/-- A zero capture in progress (R141). -/
structure Capture where
  kind : CaptureKind
  startedAt : Nat
  count : Nat
  sum : Int
deriving DecidableEq, Repr

/-- Why a capture was abandoned (R145). -/
inductive AbandonReason where
  | saturated | grip | moving | staleSample | sensor | loadClass
deriving DecidableEq, Repr

/-- The outcome of a completed capture (R146, R148). -/
inductive CaptureOutcome where
  | ready | zeroDrift | verifyZeroDone
deriving DecidableEq, Repr

/-- The kind of a weigh session with what it was given at opening (R134). -/
inductive SessionKind where
  | order (id : Nat) (coil : Option Nat) (declared : Option Nat)
  | span (mass : Nat)
deriving DecidableEq, Repr

/-- An entry of a session window: a net and whether its sample was SATURATED (R134). -/
structure WindowEntry where
  net : Int
  saturated : Bool
deriving DecidableEq, Repr

/-- A weigh session (R134). `atLiftOff` tells the session that the MOC opens at lift-off from the one it opens at the
start of LIFT (R185). -/
structure Session where
  kind : SessionKind
  openedAt : Nat
  window : List WindowEntry
  counting : Bool
  atLiftOff : Bool
deriving DecidableEq, Repr

/-- The status of a weigh result (R139). -/
inductive WeighStatus where
  | stable | unstable | noResult | overRange | underZero
deriving DecidableEq, Repr

/-- The match flag of a weigh result (R138). -/
inductive MatchFlag where
  | agrees | mismatch | notChecked
deriving DecidableEq, Repr

/-- A weigh result (R139). -/
structure WeighResult where
  kind : SessionKind
  status : WeighStatus
  weight : Option Nat
  division : Int
  flag : MatchFlag
deriving DecidableEq, Repr

/-- A raw load sample with its status and time (R126). -/
structure RawSample where
  raw : Int
  saturated : Bool
  arrival : Nat
deriving DecidableEq, Repr

/-! ## TBU (chapter 7) -/

/-- A truck record (R151): the version and the content. -/
structure Truck where
  version : Nat
  content : TruckContent
deriving DecidableEq, Repr

/-- The kinds of a truck request with what they carry (R156). -/
inductive TruckReqKind where
  | arrive (data : TruckData)
  | ready
  | hold
  | depart
deriving DecidableEq, Repr

/-- A pending truck request (R156); `newer` is the phase WAIT_NEWER, else WAIT_CLAIM. -/
structure TruckReq where
  kind : TruckReqKind
  acceptedAt : Nat
  newer : Bool
deriving DecidableEq, Repr

/-- The failures a content check names (R153). -/
inductive ContentFail where
  | allowance | groups | positionCount | shares | positionPlace | planOrder | loadedFields | overLimit | sums
deriving DecidableEq, Repr

/-- Why a truck request failed (R158 to R161). -/
inductive TruckFail where
  | notEmptyBay | content (f : ContentFail) | noTruck | noChange | loadActive | versionLimit
  | claimTimeout | truckStale | nodeParked | nodeFault
deriving DecidableEq, Repr

/-- Why a trailer commit was lost (R169, R170). -/
inductive CommitFail where
  | noTruck | truckStale | noFit | versionLimit
deriving DecidableEq, Repr

/-- What changed a truck record (R159, R163). -/
inductive TruckSource where
  | own | peer (n : Nat)
deriving DecidableEq, Repr

/-! ## MOC (chapter 8) -/

/-- The phases of an active order (10.3); `opening` is OPEN. -/
inductive Phase where
  | claimSource | toSource | pickLower | lift | decide | holdLoad | claimDest | toDest | placeLower | opening | clear
deriving DecidableEq, Repr

/-- The reasons of FAILED (R195). -/
inductive FailReason where
  | sourceEmpty | sourceNotOccupied | sourceBlocked | sourceBuried | noSlot | noSource | coilIdDiffers
  | versionLimit | badTarget | nodeFault
deriving DecidableEq, Repr

/-- How an order ended (R195). -/
inductive OrderEnd where
  | done
  | failed (r : FailReason)
  | cancelled
deriving DecidableEq, Repr

/-- The phase a TARGET carries: a phase, or how the order ended (10.3). -/
inductive TargetPhase where
  | phase (p : Phase)
  | done
  | failed
  | cancelled
deriving DecidableEq, Repr

/-- The destination in use (R174). -/
inductive DestUse where
  | slot (id : Nat)
  | position (bay : Nat) (position : Nat)
deriving DecidableEq, Repr

/-- A place: its x and y, and the height of its seat or deck (R100, R151). -/
structure Place where
  x : Int
  y : Int
  seat : Int
deriving DecidableEq, Repr

/-- The details of NO_POSITION (R166, R186). -/
inductive PositionDetail where
  | notReady | versionLimit | noFit | earlyContact
deriving DecidableEq, Repr

/-- Why a destination was not taken at DECIDE (R186, R187). -/
inductive DestFail where
  | cancel | mismatch | noSlot (f : Option CandidateFail) | noPosition (d : PositionDetail) | truckStale
  | weighLocked | noAlternate
deriving DecidableEq, Repr

/-- The answer of the source test (R177): the pick test's or the trailer source test's, with the place of an eligible
source. -/
inductive SourceAnswer where
  | eligible
  | claimed
  | truckStale
  | failed (r : FailReason)
deriving DecidableEq, Repr

/-- The active order with its working fields (R174), its claims by role (R178) and what was already reported in the
present phase (R184, R196). -/
structure Active where
  ord : Order
  phase : Phase
  coil : Coil
  result : Option WeighResult
  destUse : Option DestUse
  diverted : Option DestFail
  primaryDropped : Bool
  excluded : List Nat
  bayExcluded : Bool
  gripHeight : Option Int
  lifted : Bool
  contact : Option Int
  phaseAt : Nat
  srcPlace : Option Place
  destPlace : Option Place
  targetX : Int
  targetY : Int
  targetZ : Int
  srcClaims : List Target
  destClaims : List Target
  transit : List Nat
  askRefused : Bool
  waitTold : Bool
  gripHighTold : Bool
  usedWeight : Option Nat
deriving DecidableEq, Repr

/-- An ended order (R198). -/
structure Ended where
  ord : Order
  ending : OrderEnd
  result : Option WeighResult
  destUse : Option DestUse
deriving DecidableEq, Repr

/-- The cause of the untracked-load mark (R220). -/
inductive UntrackedCause where
  | restart | orderEnd
deriving DecidableEq, Repr

/-- Where a load was set down (R221). -/
inductive SetDown where
  | slot (id : Nat)
  | position (bay : Nat) (position : Nat)
  | none
deriving DecidableEq, Repr

/-- What an ORDER_STATE reports (R175, R195, R196). -/
inductive OrderReport where
  | queued
  | phase (p : Phase)
  | ended (e : OrderEnd)
deriving DecidableEq, Repr

/-- The cause an ORDER_WAITING carries (R196). -/
inductive WaitCause where
  | claimListFull
  | claim (t : Target) (st : Option ClaimState)
  | truckStale
  | sourceClaimed
  | staleSample
  | permit (c : Cause)
  | none
  | grip
deriving DecidableEq, Repr

/-! ## CPT (chapter 9) -/

/-- The held position sample with its sample sequence (R206). -/
structure Sample where
  x : Int
  y : Int
  z : Int
  vx : Int
  vy : Int
  vz : Int
  az : Int
  grip : Grip
  seq : Nat
deriving DecidableEq, Repr

/-- The fields OUT_OF_FIELD may name (R207). -/
inductive SampleField where
  | x | y | z | vx | vy | vz | az
deriving DecidableEq, Repr

/-- The statuses of a response (R201). -/
inductive Status where
  | ok | accepted | busy | badState | badArg | refused
deriving DecidableEq, Repr

/-- The reason or qualifier of a response. -/
inductive Reason where
  | none | ignoredBlocked | unknownKind | length | argument | entry (k : Nat)
  | duplicateId | queueFull | sourceBuried (ids : List Nat) | orderActive | loadNotEmpty | noPeer | peerNotLost
  | hookMoving | hookNotEmpty | loadActive | claimListFull | noOrder | notHeld | holdingLoad | orderEnding
  | badImage (p : Param) (c : ImageCheck)
deriving DecidableEq, Repr

/-- A claim of one peer on a slot, as READ_SLOT gives it (R124). -/
structure PeerClaim where
  n : Nat
  held : Bool
deriving DecidableEq, Repr

/-- The answer of READ_SLOT and of a slot stream record (R124). A record of none is marked absent. -/
structure SlotView where
  id : Nat
  data : Option SlotRec
  upper : Bool
  x : Int
  y : Int
  seat : Int
  top : Int
  columnTop : Option Int
  ownClaim : Option ClaimState
  peerClaims : List PeerClaim
deriving DecidableEq, Repr

/-- The answer of READ_TRUCK for a bay with a bound zone (R171). -/
structure BayView where
  truck : Truck
  required : Nat
  stale : Bool
  highest : Nat
  claim : Option ClaimState
  request : Option TruckReq
  requestAge : Nat
deriving DecidableEq, Repr

/-- The state of one claim of an order (R198). -/
structure ClaimView where
  target : Target
  state : ClaimState
deriving DecidableEq, Repr

/-- The answer of READ_ORDER (R198). -/
inductive OrderView where
  | queued (o : Order)
  | active (a : Active) (claims : List ClaimView)
  | ended (e : Ended)
deriving DecidableEq, Repr

/-- The weighing group of READ_STATUS (R150). -/
structure WeighStatusView where
  state : WeighView
  zero : Int
  loadClass : LoadClass
  windowCount : Nat
  overCount : Nat
  session : Option SessionKind
  last : Option WeighResult
  latest : Option RawSample
  latestAge : Nat
  lost : Bool
  bad : Nat
deriving DecidableEq, Repr

/-- The fields of READ_STATUS (R211), by group. -/
structure StatusView where
  nodeState : NodeState
  craneNo : Option Nat
  straps : Option Straps
  lastStop : StopCause
  lastFault : FaultCause
  txFail : Bool
  image : ImageState
  txDropped : Nat
  rxBad : Nat
  cpBad : Nat
  cpOverrun : Nat
  skipped : Nat
  old : Nat
  dropped : Nat
  held : Option Sample
  sampleAge : Nat
  sampleStale : Bool
  peers : Nat
  live : Nat
  stale : Nat
  lost : Nat
  claims : List OwnClaim
  conflicts : List Nat
  weighing : WeighStatusView
  slotsUnknown : Nat
  slotsEmpty : Nat
  slotsOccupied : Nat
  slotsBlocked : Nat
  slotsDisputed : Nat
  baysNoTruck : Nat
  baysHold : Nat
  baysReady : Nat
  baysStale : Nat
  orders : Nat
  activeId : Option Nat
  activePhase : Option Phase
  untracked : Option UntrackedCause
deriving DecidableEq, Repr

/-- The content of a response (R201). `noBay` is the record of a bay without a bound zone, marked no bay (R171). -/
inductive RespContent where
  | none
  | count (n : Nat)
  | status (v : StatusView)
  | slot (v : SlotView)
  | peer (n : Nat) (record : Option Peer) (track : Option Track)
  | noBay (t : Truck)
  | bay (v : BayView)
  | order (v : OrderView)
deriving DecidableEq, Repr

/-- The request kind a response names (10.3). -/
inductive RespKind where
  | known (k : ReqKind)
  | unknown (code : Nat)
deriving DecidableEq, Repr

/-- A response (R201); `repeated` is the repeat mark of R202. -/
structure Response where
  seq : Nat
  kind : RespKind
  status : Status
  reason : Reason
  content : RespContent
  repeated : Bool
deriving DecidableEq, Repr

/-- What a response echoes of a request, and what tells a repeat: the sequence, and the payload bytes (R201, R202). -/
structure ReqTag where
  seq : Nat
  payload : List Byte
deriving DecidableEq, Repr

/-- The last request memory: kind, sequence and payload of the request, and its response (R202). -/
structure Answered where
  kind : ReqKind
  tag : ReqTag
  response : Response
deriving DecidableEq, Repr

/-- The events of all blocks (R204). -/
inductive Event where
  | nodeState (st : NodeState) (cause : FaultCause)
  | lineTxFail
  | duplicateSeen (serial : Nat)
  | peerNew (n serial : Nat)
  | peerReplaced (n serial : Nat)
  | peerRestarted (n : Nat)
  | peerBack (n : Nat)
  | peerStale (n : Nat)
  | peerLost (n : Nat)
  | peerProfileBad (n : Nat)
  | peerOutOfField (n : Nat)
  | peerTableFull
  | claimCopyFull (n : Nat)
  | mapGap (n last seq : Nat)
  | mapResync (n seq : Nat)
  | positionClash (n : Nat)
  | claimState (t : Target) (st : Option ClaimState)
  | zoneConflict (z : Nat)
  | zoneConflictClear (z : Nat)
  | slotDoubleHold (slot n : Nat)
  | claimsCleared (n k : Nat)
  | slotChanged (slot : Nat) (src : ChangeReport)
  | noticeNoSlot (n slot : Nat)
  | noticeFieldBad (n slot : Nat)
  | slotDisputed (slot n : Nat)
  | slotChosen (order slot : Nat) (cost : Int)
  | slotChoiceEmpty (order r1 r2 : Nat)
  | loadClass (c : LoadClass)
  | weighState (v : WeighView)
  | weighResult (r : WeighResult)
  | zeroCaptured (average : Int) (o : CaptureOutcome)
  | captureAbandoned (k : CaptureKind) (r : AbandonReason)
  | truckVersionLimit (bay : Nat)
  | truckStale (bay own required : Nat)
  | truckStaleClear (bay : Nat)
  | truckRequestFailed (bay : Nat) (r : TruckFail)
  | truckUpdated (bay version : Nat) (src : TruckSource)
  | truckStateBad (n bay : Nat) (f : ContentFail)
  | truckVersionClash (bay n version : Nat)
  | truckPositionChosen (order bay position : Nat)
  | truckCommitLost (bay position coil : Nat) (f : CommitFail)
  | truckPositionFoundEmpty (bay position coil : Nat)
  | orderState (id : Nat) (r : OrderReport)
  | gripClosedHigh (id : Nat) (z : Int)
  | lowLanding (id : Nat) (z : Int)
  | earlyContact (id bay position : Nat)
  | orderDiverted (id : Nat) (r : DestFail)
  | orderHeld (id : Nat) (primary alternate : DestFail)
  | cancelDiverted (id : Nat)
  | orderWaiting (id : Nat) (p : Phase) (c : WaitCause)
  | outOfField (fields : List SampleField)
  | positionStale
  | positionBack (gap : Nat)
  | eventsLost (k : Nat)
  | untrackedLoad (c : UntrackedCause) (x y z : Int)
  | untrackedLoadClear (x y z : Int) (place : SetDown)
deriving DecidableEq, Repr

/-- What an outgoing record carries (R203). -/
inductive OutBody where
  | response (r : Response)
  | permit (st : NodeState) (p : PermitRecord)
  | target (order : Nat) (phase : TargetPhase) (x y z : Int)
  | event (e : Event)
  | stream (seq k : Nat) (v : SlotView)
deriving DecidableEq, Repr

/-- An outgoing record with its time stamp (R203). -/
structure OutRecord where
  stamp : Nat
  body : OutBody
deriving DecidableEq, Repr

/-- The record last sent on the crane port: its output sequence (none on a response) and its bytes (10.3). -/
structure SentRecord where
  outSeq : Option Nat
  record : OutRecord
  bytes : List Byte
deriving DecidableEq, Repr

/-- A frame in the request buffer (R200): a request, or a frame that R199 answers with BAD_ARG. -/
inductive BufFrame where
  | request (tag : ReqTag) (r : Request)
  | bad (seq : Nat) (kind : RespKind) (reason : Reason)
deriving DecidableEq, Repr

/-- A slot stream in progress (R212): the sequence of its READ_SLOTS, the id its walk has reached, the index of the
next record and their number. -/
structure Stream where
  seq : Nat
  next : Nat
  k : Nat
  n : Nat
deriving DecidableEq, Repr

/-! ## Hand-ons between blocks -/

/-- A hand-on from one block to another that is still to be served inside a command (R95, R102, R139, R171, R195). -/
inductive Work where
  /-- CLU to MOC: an entry of order `id` changed to `st`; `left` says that it left HELD (R95, R181). -/
  | orderClaim (id : Nat) (t : Target) (st : ClaimState) (left : Bool)
  /-- CLU to TBU: the claim of a bay's truck request changed (R94, R157). -/
  | truckClaim (bay : Nat)
  /-- CLU to MOC: an entry was removed from the own claim list (R178). -/
  | claimRemoved
  /-- SMU to MOC: a slot record changed (R102 step 3). -/
  | slotChanged (slot : Nat)
  /-- TBU to MOC: a truck record or its STALE changed (R171). -/
  | bayChanged (bay : Nat)
  /-- TBU to itself: a bay stopped being STALE (R157). -/
  | staleEnded (bay : Nat)
  /-- WGU to MOC: an ORDER session ended (R139); `atLiftOff` names the session opened at lift-off (R185). -/
  | weighResult (r : WeighResult) (atLiftOff : Bool)
  /-- MOC: activation is tested (R177). -/
  | activate
  /-- MOC: the order in DECIDE settles its destination (R186). -/
  | decide
  /-- MOC: the tests at a phase entry, and the test whether the phase's claims are HELD (R179, R182, R183, R188). -/
  | progress
  /-- MOC to CLU: the phase changed, so slot double holds are decided again (R92). -/
  | phaseChanged
deriving DecidableEq, Repr

end Sys2Proof.Machine
end

