-- ==== Sys2Proof/Config.lean ====
section
/-! DEFINITION. The free values: what the spec leaves to chance or does not state. Each is an opaque constant, so that
nothing can be proved of its value; the plain counter State.draws picks a fresh one each time (log entries 5, 6 and
30). -/

namespace Sys2Proof.Config

/-- The k-th random number the part draws (backoff R2, jitter R7, delays R8 and R10, check pattern R18). The callers
reduce it to the range their rule states. -/
opaque draw : Nat → Nat

/-- The average of a zero capture that ended with no sample counted: R146 divides by the count and states no result
there. -/
opaque emptyAverage : Nat → Int

/-- The two bytes of a response's reason or qualifier (10.3): the codes are not tabled (log entry 30). -/
opaque reasonCode : Machine.Reason → Nat

/-- The bytes of a response's content (10.3): the layouts are not tabled (log entry 30). -/
opaque contentBytes : Machine.RespContent → List Byte

/-- The bytes of an event behind its time stamp (10.3): the layouts are not tabled (log entry 30). -/
opaque eventBytes : Machine.Event → List Byte

/-- The bytes of a slot stream record behind its time stamp: the sequence of its READ_SLOTS, its index and the slot
(R212); the layout is not tabled (log entry 30). -/
opaque streamBytes : Nat → Nat → Machine.SlotView → List Byte

end Sys2Proof.Config
end

