-- ==== Sys2Proof/Machine/Codec.lean ====
section
/-! DEFINITION. The encoding conventions of R218, the layouts of 10.2 and 10.3, and the well-formedness checks of R219
and R5. Runway frames are encoded and read whole; of a crane port frame,
each of its parts that is tabled; the parts that are not are free values (log entry 30). -/

namespace Sys2Proof.Machine.Codec

open Sys2Proof

/-! ## Fields -/

/-- A one-byte field. -/
def put1 (n : Nat) : List Byte := [BitVec.ofNat 8 n]

/-- A two-byte field, most significant byte first (R218). -/
def put2 (n : Nat) : List Byte := [BitVec.ofNat 8 (n / 256), BitVec.ofNat 8 n]

/-- A four-byte field, most significant byte first (R218). -/
def put4 (n : Nat) : List Byte := put2 (n / 65536) ++ put2 n

/-- A six-byte field, the serial. -/
def put6 (n : Nat) : List Byte := put2 (n / 4294967296) ++ put4 n

/-- A signed two-byte field in two's complement (R218). -/
def putS2 (v : Int) : List Byte := put2 (v % 65536).toNat

/-- A signed four-byte field in two's complement (R218). -/
def putS4 (v : Int) : List Byte := put4 (v % 4294967296).toNat

/-- An optional four-byte field: an absent field takes no bytes (R218). -/
def putOpt4 (v : Option Nat) : List Byte :=
  match v with
  | none => []
  | some n => put4 n

/-- An optional two-byte field. -/
def putOpt2 (v : Option Nat) : List Byte :=
  match v with
  | none => []
  | some n => put2 n

/-- A flag as a bit of a flag byte. -/
def flagBit (b : Bool) (weight : Nat) : Nat := if b then weight else 0

/-! ## CRC -/

/-- One bit of the CRC: generator x^16 + x^12 + x^5 + 1 (R218). -/
def crcBit (r : BitVec 16) : BitVec 16 :=
  if r.msb then (r <<< 1) ^^^ 0x1021#16 else r <<< 1

/-- k bits of the CRC register. -/
def crcBits : Nat → BitVec 16 → BitVec 16
  | 0, r => r
  | k + 1, r => crcBits k (crcBit r)

/-- One byte into the CRC register, most significant bit first. -/
def crcByte (r : BitVec 16) (b : Byte) : BitVec 16 := crcBits 8 (r ^^^ (b.zeroExtend 16 <<< 8))

/-- The CRC over a list of bytes: register preset to all ones, result not inverted (R218). -/
def crc (bytes : List Byte) : BitVec 16 := bytes.foldl crcByte 0xFFFF#16

/-- The bytes followed by their CRC, high byte first (R218). -/
def withCrc (bytes : List Byte) : List Byte := bytes ++ put2 (crc bytes).toNat

/-! ## Codes -/

/-- The node state codes on the line (10.2). -/
def lineStateCode : LineState → Nat
  | .joining => 2
  | .running => 3
  | .parked => 4
  | .fault => 6

/-- The node states by their line codes (10.2). -/
def lineStateOf : Nat → Option LineState
  | 2 => some .joining
  | 3 => some .running
  | 4 => some .parked
  | 6 => some .fault
  | _ => none

/-- The load class codes (10.2). -/
def loadClassCode : LoadClass → Nat
  | .empty => 0
  | .loaded => 1
  | .overload => 2

/-- The load classes by their codes (10.2). -/
def loadClassOf : Nat → Option LoadClass
  | 0 => some .empty
  | 1 => some .loaded
  | 2 => some .overload
  | _ => none

/-- The notice kind codes (10.2). -/
def noticeKindCode : NoticeKind → Nat
  | .pick => 1
  | .place => 2
  | .foundEmpty => 3
  | .foundOccupied => 4
  | .setBlock => 5
  | .clearBlock => 6

/-- The notice kinds by their codes (10.2). -/
def noticeKindOf : Nat → Option NoticeKind
  | 1 => some .pick
  | 2 => some .place
  | 3 => some .foundEmpty
  | 4 => some .foundOccupied
  | 5 => some .setBlock
  | 6 => some .clearBlock
  | _ => none

/-- The grip state codes (10.3). -/
def gripOf : Nat → Option Grip
  | 0 => some .opened
  | 1 => some .closed
  | 2 => some .moving
  | _ => none

/-- The node state codes of a PERMIT (10.3). RESET sends no PERMIT (R72). -/
def nodeStateCode : NodeState → Nat
  | .reset => 0
  | .config => 1
  | .joining => 2
  | .running => 3
  | .parked => 4
  | .resuming => 5
  | .fault => 6

/-- The cause codes of a PERMIT (10.3), which follow the tie order of R69. -/
def causeCode : Cause → Nat
  | .state => 1
  | .staleSample => 2
  | .peer _ => 3
  | .runwayEnd => 4
  | .spanEnd => 5
  | .zone _ => 6
  | .noLoad _ => 7
  | .row _ => 8
  | .column _ => 9
  | .zLimit => 10
  | .overload => 11
  | .conflict _ => 12
  | .ceiling _ => 13
  | .contact => 14
  | .vmax => 15

/-- The cause argument of a PERMIT (10.3): 0 where the cause has none. -/
def causeArg : Cause → Nat
  | .peer n => n
  | .zone z => z
  | .noLoad z => z
  | .row r => r
  | .column c => c
  | .conflict z => z
  | .ceiling z => z
  | .state => 0
  | .staleSample => 0
  | .runwayEnd => 0
  | .spanEnd => 0
  | .zLimit => 0
  | .overload => 0
  | .contact => 0
  | .vmax => 0

/-- The phase codes of a TARGET (10.3). -/
def phaseCode : TargetPhase → Nat
  | .phase .claimSource => 1
  | .phase .toSource => 2
  | .phase .pickLower => 3
  | .phase .lift => 4
  | .phase .decide => 5
  | .phase .holdLoad => 6
  | .phase .claimDest => 7
  | .phase .toDest => 8
  | .phase .placeLower => 9
  | .phase .opening => 10
  | .phase .clear => 11
  | .done => 12
  | .failed => 13
  | .cancelled => 14

/-! ## Encoding of runway frames (10.2) -/

/-- The kind byte of a target: 0 ZONE, 1 SLOT, any other as it stands. -/
def targetKind : Target → Nat
  | .zone _ => 0
  | .slot _ => 1
  | .other k _ => k

/-- The id of a target. -/
def targetId : Target → Nat
  | .zone id => id
  | .slot id => id
  | .other _ id => id

/-- A claim entry: flags, priority, target id, and the version where bit 2 says so. -/
def putEntry (e : ClaimEntry) : List Byte :=
  put1 (targetKind e.target + flagBit e.held 2 + flagBit e.version.isSome 4) ++ put1 e.prio
    ++ put2 (targetId e.target) ++ putOpt2 e.version

/-- The payload of a BEACON. -/
def putBeacon (b : Beacon) : List Byte :=
  put1 (lineStateCode b.state) ++ put1 (flagBit b.valid 1) ++ putS4 b.x ++ putS2 b.vx ++ put2 b.age
    ++ put1 (loadClassCode b.loadClass) ++ put2 b.noticeSeq ++ put1 b.claims.length ++ b.claims.flatMap putEntry

/-- The payload of a PROFILE. -/
def putProfile (p : Profile) : List Byte :=
  put2 p.left ++ put2 p.right ++ put2 p.vmaxEmpty ++ put2 p.decEmpty ++ put2 p.vmaxLoaded ++ put2 p.decLoaded
    ++ put2 p.reaction ++ put2 p.creep

/-- The presence byte of a NOTICE. -/
def presence (c : Coil) : Nat :=
  flagBit c.id.isSome 1 + flagBit c.weight.isSome 2 + flagBit c.diameter.isSome 4 + flagBit c.width.isSome 8

/-- The payload of a NOTICE. -/
def putNotice (n : Notice) : List Byte :=
  put2 n.seq ++ put2 n.slot ++ put1 (noticeKindCode n.kind) ++ put1 (presence n.coil)
    ++ putOpt4 n.coil.id ++ putOpt4 n.coil.weight ++ putOpt2 n.coil.diameter ++ putOpt2 n.coil.width

/-- A position block of a TRUCK_STATE. -/
def putPosition (p : Position) : List Byte :=
  put2 p.share1 ++ put2 p.share2 ++ put2 p.share3 ++ put2 p.maxKg ++ put4 p.xOffset ++ put2 p.y
    ++ put1 (flagBit p.loaded 1) ++ (if p.loaded then putOpt4 p.coilId ++ putOpt4 p.weight else [])

/-- The payload of a TRUCK_STATE. -/
def putTruck (bay version : Nat) (c : TruckContent) : List Byte :=
  match c with
  | .noTruck => put1 bay ++ put2 version ++ put1 0
  | .present ready d cumulative loads =>
    put1 bay ++ put2 version ++ put1 (if ready then 2 else 1) ++ put4 d.truckId ++ put4 d.allowance
      ++ put2 d.deckHeight ++ put1 d.limits.length ++ d.limits.flatMap put4 ++ put1 d.positions.length
      ++ d.positions.flatMap putPosition ++ d.plan.flatMap put1 ++ put4 cumulative ++ loads.flatMap put4

/-- The kind byte of a frame (10.2). -/
def frameKind : FrameBody → Nat
  | .join _ _ => 1
  | .welcome _ _ => 2
  | .beacon _ => 3
  | .profile _ => 4
  | .claim _ _ => 5
  | .release _ => 6
  | .notice _ => 7
  | .truckState _ _ _ => 8

/-- The payload of a frame by its kind (10.2). -/
def payload : FrameBody → List Byte
  | .join pattern x => put2 pattern ++ putS4 x
  | .welcome pattern joiner => put2 pattern ++ put1 joiner
  | .beacon b => putBeacon b
  | .profile p => putProfile p
  | .claim t prio => put1 (targetKind t) ++ put2 (targetId t) ++ put1 prio
  | .release t => put1 (targetKind t) ++ put2 (targetId t)
  | .notice n => putNotice n
  | .truckState bay version c => putTruck bay version c

/-- The bytes of a runway frame: header, payload, CRC (10.2, R218). -/
def encode (f : Frame) : List Byte :=
  let body := payload f.body
  withCrc (put1 (frameKind f.body) ++ put1 body.length ++ put1 f.sender ++ put6 f.serial ++ body)

/-! ## Reading of runway frames -/

/-- A one-byte field and the bytes behind it. -/
def take1 : List Byte → Option (Nat × List Byte)
  | a :: rest => some (a.toNat, rest)
  | _ => none

/-- A two-byte field and the bytes behind it. -/
def take2 : List Byte → Option (Nat × List Byte)
  | a :: b :: rest => some (a.toNat * 256 + b.toNat, rest)
  | _ => none

/-- A four-byte field and the bytes behind it. -/
def take4 (bs : List Byte) : Option (Nat × List Byte) := do
  let (h, r) ← take2 bs
  let (l, r) ← take2 r
  some (h * 65536 + l, r)

/-- A six-byte field and the bytes behind it. -/
def take6 (bs : List Byte) : Option (Nat × List Byte) := do
  let (h, r) ← take2 bs
  let (l, r) ← take4 r
  some (h * 4294967296 + l, r)

/-- The signed value of a two-byte field in two's complement. -/
def signed2 (n : Nat) : Int := if n < 32768 then (n : Int) else (n : Int) - 65536

/-- The signed value of a four-byte field in two's complement. -/
def signed4 (n : Nat) : Int := if n < 2147483648 then (n : Int) else (n : Int) - 4294967296

/-- An optional four-byte field, read when the flag says that it is present (R219). -/
def takeOpt4 (there : Bool) (bs : List Byte) : Option (Option Nat × List Byte) :=
  if there then (take4 bs).map fun (n, r) => (some n, r) else some (none, bs)

/-- An optional two-byte field. -/
def takeOpt2 (there : Bool) (bs : List Byte) : Option (Option Nat × List Byte) :=
  if there then (take2 bs).map fun (n, r) => (some n, r) else some (none, bs)

/-- k items read one after the other. -/
def takeMany {α : Type} (item : List Byte → Option (α × List Byte)) : Nat → List Byte → Option (List α × List Byte)
  | 0, bs => some ([], bs)
  | k + 1, bs => do
    let (a, r) ← item bs
    let (as, r) ← takeMany item k r
    some (a :: as, r)

/-- A target from its kind byte and id. The byte decides no layout, so R219 does not judge it, and R76 takes a target of
any other kind as one that names nothing. -/
def targetOf (kind id : Nat) : Target :=
  match kind with
  | 0 => .zone id
  | 1 => .slot id
  | k => .other k id

/-- A claim entry: no flag bit above bit 2, and the version bit only on a ZONE entry (R219). -/
def takeEntry (bs : List Byte) : Option (ClaimEntry × List Byte) := do
  let (flags, r) ← take1 bs
  let (prio, r) ← take1 r
  let (id, r) ← take2 r
  let there := flags / 4 % 2 == 1
  if flags ≥ 8 ∨ (there ∧ flags % 2 = 1) then none
  else
    let (version, r) ← takeOpt2 there r
    some ({ target := targetOf (flags % 2) id, held := flags / 2 % 2 == 1, prio := prio, version := version }, r)

/-- The payload of a BEACON (R219: state and class codes listed, claim count 0 to 6, flag bit 0 only). -/
def takeBeacon (bs : List Byte) : Option (Beacon × List Byte) := do
  let (st, r) ← take1 bs
  let state ← lineStateOf st
  let (flags, r) ← take1 r
  let (x, r) ← take4 r
  let (vx, r) ← take2 r
  let (age, r) ← take2 r
  let (cl, r) ← take1 r
  let loadClass ← loadClassOf cl
  let (noticeSeq, r) ← take2 r
  let (count, r) ← take1 r
  if flags ≥ 2 ∨ count > 6 then none
  else
    let (claims, r) ← takeMany takeEntry count r
    some ({ state := state, valid := flags == 1, x := signed4 x, vx := signed2 vx, age := age,
            loadClass := loadClass, noticeSeq := noticeSeq, claims := claims }, r)

/-- The payload of a PROFILE. -/
def takeProfile (bs : List Byte) : Option (Profile × List Byte) := do
  let (left, r) ← take2 bs
  let (right, r) ← take2 r
  let (vmaxEmpty, r) ← take2 r
  let (decEmpty, r) ← take2 r
  let (vmaxLoaded, r) ← take2 r
  let (decLoaded, r) ← take2 r
  let (reaction, r) ← take2 r
  let (creep, r) ← take2 r
  some ({ left := left, right := right, vmaxEmpty := vmaxEmpty, decEmpty := decEmpty, vmaxLoaded := vmaxLoaded,
          decLoaded := decLoaded, reaction := reaction, creep := creep }, r)

/-- Whether a NOTICE of this kind may carry coil fields (R108, R219). -/
def carriesCoil : NoticeKind → Bool
  | .pick => true
  | .place => true
  | .foundEmpty => false
  | .foundOccupied => false
  | .setBlock => false
  | .clearBlock => false

/-- The payload of a NOTICE (R219: kind listed, presence bits 0 to 3, presence 0 for kinds 3 to 6). -/
def takeNotice (bs : List Byte) : Option (Notice × List Byte) := do
  let (seq, r) ← take2 bs
  let (slot, r) ← take2 r
  let (k, r) ← take1 r
  let kind ← noticeKindOf k
  let (p, r) ← take1 r
  if p ≥ 16 ∨ (carriesCoil kind = false ∧ p ≠ 0) then none
  else
    let (id, r) ← takeOpt4 (p % 2 == 1) r
    let (weight, r) ← takeOpt4 (p / 2 % 2 == 1) r
    let (diameter, r) ← takeOpt2 (p / 4 % 2 == 1) r
    let (width, r) ← takeOpt2 (p / 8 % 2 == 1) r
    some ({ seq := seq, slot := slot, kind := kind,
            coil := { id := id, weight := weight, diameter := diameter, width := width } }, r)

/-- A position block of a TRUCK_STATE (R219: load state 0 or 1). -/
def takePosition (bs : List Byte) : Option (Position × List Byte) := do
  let (share1, r) ← take2 bs
  let (share2, r) ← take2 r
  let (share3, r) ← take2 r
  let (maxKg, r) ← take2 r
  let (xOffset, r) ← take4 r
  let (y, r) ← take2 r
  let (ls, r) ← take1 r
  if ls ≥ 2 then none
  else
    let (coilId, r) ← takeOpt4 (ls == 1) r
    let (weight, r) ← takeOpt4 (ls == 1) r
    some ({ share1 := share1, share2 := share2, share3 := share3, maxKg := maxKg, xOffset := xOffset, y := y,
            loaded := ls == 1, coilId := coilId, weight := weight }, r)

/-- The content of a TRUCK_STATE behind its version (R219: record state, group count 1 to 3, position count 1 to 6). -/
def takeTruck (bs : List Byte) : Option (TruckContent × List Byte) := do
  let (st, r) ← take1 bs
  if st = 0 then some (.noTruck, r)
  else if st > 2 then none
  else
    let (truckId, r) ← take4 r
    let (allowance, r) ← take4 r
    let (deckHeight, r) ← take2 r
    let (g, r) ← take1 r
    if g < 1 ∨ g > 3 then none
    else
      let (limits, r) ← takeMany take4 g r
      let (p, r) ← take1 r
      if p < 1 ∨ p > 6 then none
      else
        let (positions, r) ← takeMany takePosition p r
        let (plan, r) ← takeMany take1 p r
        let (cumulative, r) ← take4 r
        let (loads, r) ← takeMany take4 g r
        let data : TruckData :=
          { truckId := truckId, allowance := allowance, deckHeight := deckHeight, limits := limits,
            positions := positions, plan := plan }
        some (.present (st == 2) data cumulative loads, r)

/-- The payload of a frame of a kind, and the bytes left over. A kind byte outside 1 to 8 is no kind (R5). -/
def takeBody (kind : Nat) (bs : List Byte) : Option (FrameBody × List Byte) :=
  match kind with
  | 1 => do
    let (pattern, r) ← take2 bs
    let (x, r) ← take4 r
    some (.join pattern (signed4 x), r)
  | 2 => do
    let (pattern, r) ← take2 bs
    let (joiner, r) ← take1 r
    some (.welcome pattern joiner, r)
  | 3 => (takeBeacon bs).map fun (b, r) => (.beacon b, r)
  | 4 => (takeProfile bs).map fun (p, r) => (.profile p, r)
  | 5 => do
    let (k, r) ← take1 bs
    let (id, r) ← take2 r
    let (prio, r) ← take1 r
    some (.claim (targetOf k id) prio, r)
  | 6 => do
    let (k, r) ← take1 bs
    let (id, r) ← take2 r
    some (.release (targetOf k id), r)
  | 7 => (takeNotice bs).map fun (n, r) => (.notice n, r)
  | 8 => do
    let (bay, r) ← take1 bs
    let (version, r) ← take2 r
    let (c, r) ← takeTruck r
    some (.truckState bay version c, r)
  | _ => none

/-- The CRC checked and taken off: the bytes before it, where it is right. -/
def checkCrc (bytes : List Byte) : Option (List Byte) :=
  let front := bytes.take (bytes.length - 2)
  if bytes.length ≥ 2 ∧ bytes = withCrc front then some front else none

/-- The frame that a string of bytes is, where it passes every check of R5 and R219. -/
def decode (bytes : List Byte) : Option Frame := do
  let front ← checkCrc bytes
  let (kind, r) ← take1 front
  let (len, r) ← take1 r
  let (sender, r) ← take1 r
  let (serial, r) ← take6 r
  let (body, rest) ← takeBody kind r
  if r.length = len ∧ rest = [] ∧ 1 ≤ sender ∧ sender ≤ 8 then
    some { sender := sender, serial := serial, body := body }
  else none

/-! ## The well-formedness of a frame held as data (R219)

`formOk` is what R219 asks of the counts and codes that decide the layout; `fits` adds that every field has a value its
bytes can carry. -/

/-- A claim entry names a ZONE or a SLOT, and states a version only on a ZONE (10.2, R219). -/
def entryOk (e : ClaimEntry) : Bool :=
  match e.target with
  | .zone _ => true
  | .slot _ => e.version.isNone
  | .other _ _ => false

/-- A position carries a coil exactly when it is LOADED (10.2). -/
def positionOk (p : Position) : Bool := (p.coilId.isSome == p.loaded) && (p.weight.isSome == p.loaded)

/-- The layout conditions of R219 on the content of a TRUCK_STATE. -/
def truckOk : TruckContent → Bool
  | .noTruck => true
  | .present _ d _ loads =>
    decide (1 ≤ d.limits.length ∧ d.limits.length ≤ 3 ∧ 1 ≤ d.positions.length ∧ d.positions.length ≤ 6
      ∧ d.plan.length = d.positions.length ∧ loads.length = d.limits.length)
      && d.positions.all positionOk

/-- R219 on a frame held as data. -/
def formOk : FrameBody → Bool
  | .join _ _ => true
  | .welcome _ _ => true
  | .beacon b => decide (b.claims.length ≤ 6) && b.claims.all entryOk
  | .profile _ => true
  | .claim _ _ => true
  | .release _ => true
  | .notice n => carriesCoil n.kind || n.coil == {}
  | .truckState _ _ c => truckOk c

/-- A value fits an unsigned field of this many bits. -/
def fitsIn (bits n : Nat) : Bool := decide (n < 2 ^ bits)

/-- An optional value fits its field. -/
def optFits (bits : Nat) (v : Option Nat) : Bool :=
  match v with
  | none => true
  | some n => fitsIn bits n

/-- A value fits a signed field of this many bits. -/
def signedFits (bits : Nat) (v : Int) : Bool := decide (-(2 ^ (bits - 1) : Int) ≤ v ∧ v < 2 ^ (bits - 1))

/-- A position's fields fit their bytes. -/
def positionFits (p : Position) : Bool :=
  fitsIn 16 p.share1 && fitsIn 16 p.share2 && fitsIn 16 p.share3 && fitsIn 16 p.maxKg && fitsIn 32 p.xOffset
    && fitsIn 16 p.y && optFits 32 p.coilId && optFits 32 p.weight

/-- The content's fields fit their bytes. -/
def contentFits : TruckContent → Bool
  | .noTruck => true
  | .present _ d cumulative loads =>
    fitsIn 32 d.truckId && fitsIn 32 d.allowance && fitsIn 16 d.deckHeight && d.limits.all (fitsIn 32)
      && d.positions.all positionFits && d.plan.all (fitsIn 8) && fitsIn 32 cumulative && loads.all (fitsIn 32)

/-- A target fits its kind byte and its id. -/
def targetFits : Target → Bool
  | .zone id => fitsIn 16 id
  | .slot id => fitsIn 16 id
  | .other k id => decide (2 ≤ k) && fitsIn 8 k && fitsIn 16 id

/-- The payload's fields fit their bytes. -/
def bodyFits : FrameBody → Bool
  | .join pattern x => fitsIn 16 pattern && signedFits 32 x
  | .welcome pattern joiner => fitsIn 16 pattern && fitsIn 8 joiner
  | .beacon b =>
    signedFits 32 b.x && signedFits 16 b.vx && fitsIn 16 b.age && fitsIn 16 b.noticeSeq
      && b.claims.all fun e => targetFits e.target && fitsIn 8 e.prio && optFits 16 e.version
  | .profile p =>
    fitsIn 16 p.left && fitsIn 16 p.right && fitsIn 16 p.vmaxEmpty && fitsIn 16 p.decEmpty
      && fitsIn 16 p.vmaxLoaded && fitsIn 16 p.decLoaded && fitsIn 16 p.reaction && fitsIn 16 p.creep
  | .claim t prio => targetFits t && fitsIn 8 prio
  | .release t => targetFits t
  | .notice n =>
    fitsIn 16 n.seq && fitsIn 16 n.slot && optFits 32 n.coil.id && optFits 32 n.coil.weight
      && optFits 16 n.coil.diameter && optFits 16 n.coil.width
  | .truckState bay version c => fitsIn 8 bay && fitsIn 16 version && contentFits c

/-- A frame that can stand on the line and passes the checks of R5 and R219: its sender is 1 to 8, it is well formed,
and each field fits its bytes. -/
def frameOk (f : Frame) : Bool :=
  decide (1 ≤ f.sender ∧ f.sender ≤ 8) && fitsIn 48 f.serial && formOk f.body && bodyFits f.body

/-! ## Crane port frames (10.3) -/

/-- The request kind codes. -/
def reqCode : ReqKind → Nat
  | .configure => 1
  | .start => 2
  | .restart => 3
  | .park => 4
  | .unpark => 5
  | .submitOrder => 6
  | .cancelOrder => 7
  | .redirect => 8
  | .truckArrive => 9
  | .truckReady => 10
  | .truckHold => 11
  | .truckDepart => 12
  | .mapLoad => 13
  | .slotBlock => 14
  | .slotUnblock => 15
  | .claimForceClear => 16
  | .weighVerifyZero => 17
  | .weighVerifySpan => 18
  | .readStatus => 19
  | .readSlot => 20
  | .readSlots => 21
  | .readPeer => 22
  | .readTruck => 23
  | .readOrder => 24

/-- The request kinds, by rising code. -/
def reqKinds : List ReqKind :=
  [.configure, .start, .restart, .park, .unpark, .submitOrder, .cancelOrder, .redirect, .truckArrive, .truckReady,
   .truckHold, .truckDepart, .mapLoad, .slotBlock, .slotUnblock, .claimForceClear, .weighVerifyZero, .weighVerifySpan,
   .readStatus, .readSlot, .readSlots, .readPeer, .readTruck, .readOrder]

/-- The request kind of a code, where it is one. -/
def reqKindOf (code : Nat) : Option ReqKind := reqKinds.find? fun k => reqCode k == code

/-- The status codes of a response. -/
def statusCode : Status → Nat
  | .ok => 0
  | .accepted => 1
  | .busy => 2
  | .badState => 3
  | .badArg => 4
  | .refused => 5

/-- The kind code a response names: of a frame of unknown kind the code received (log entry 62). -/
def respKindCode : RespKind → Nat
  | .known k => reqCode k
  | .unknown code => code

/-- A crane port frame: kind, payload length, sequence, payload, CRC. -/
def portFrame (kind seq : Nat) (body : List Byte) : List Byte :=
  withCrc (put1 kind ++ put2 body.length ++ put2 seq ++ body)

/-! ### Outgoing records -/

/-- One permit entry of a PERMIT. -/
def putPermit (p : Permit) : List Byte :=
  put2 p.speed.toNat ++ put1 (causeCode p.cause) ++ put2 (causeArg p.cause)

/-- The four free distances of a PERMIT, where they are present. -/
def putFree (f : Option FreeSet) : List Byte :=
  match f with
  | none => []
  | some d => putS4 d.gantryPlus ++ putS4 d.gantryMinus ++ putS4 d.trolleyPlus ++ putS4 d.trolleyMinus

/-- A PERMIT behind its time stamp. -/
def putPermits (st : NodeState) (r : PermitRecord) : List Byte :=
  put1 (nodeStateCode st) ++ put1 (flagBit r.free.isSome 1) ++ putPermit r.permits.gantryPlus
    ++ putPermit r.permits.gantryMinus ++ putPermit r.permits.trolleyPlus ++ putPermit r.permits.trolleyMinus
    ++ putPermit r.permits.hoistUp ++ putPermit r.permits.hoistDown ++ putFree r.free

/-- A TARGET behind its time stamp. -/
def putTarget (order : Nat) (p : TargetPhase) (x y z : Int) : List Byte :=
  put2 order ++ put1 (phaseCode p) ++ putS4 x ++ putS4 y ++ putS4 z

/-- The content of a response: its bytes are a free value where there is any (log entry 30). -/
def putContent (c : RespContent) : List Byte := if c = .none then [] else Config.contentBytes c

/-- A response behind its time stamp: kind, status, the flag byte with the repeat mark, reason or qualifier, content. -/
def putResponse (r : Response) : List Byte :=
  put1 (respKindCode r.kind) ++ put1 (statusCode r.status) ++ put1 (flagBit r.repeated 1)
    ++ put2 (Config.reasonCode r.reason) ++ putContent r.content

/-- The kind code of an outgoing record. -/
def outCode : OutBody → Nat
  | .response _ => 64
  | .permit _ _ => 65
  | .target _ _ _ _ _ => 66
  | .event _ => 67
  | .stream _ _ _ => 68

/-- What an outgoing record carries behind its time stamp. -/
def putOut : OutBody → List Byte
  | .response r => putResponse r
  | .permit st p => putPermits st p
  | .target order p x y z => putTarget order p x y z
  | .event e => Config.eventBytes e
  | .stream seq k v => Config.streamBytes seq k v

/-- The sequence in a record's header: the echoed one of a response, else the output sequence. -/
def headerSeq (outSeq : Nat) : OutBody → Nat
  | .response r => r.seq
  | _ => outSeq

/-- The bytes of an outgoing record: every payload begins with the time stamp. -/
def encodeOut (outSeq : Nat) (r : OutRecord) : List Byte :=
  portFrame (outCode r.body) (headerSeq outSeq r.body) (put4 r.stamp ++ putOut r.body)

/-! ### Received frames -/

/-- A received frame opened: the fields of its header, and the bytes between header and CRC. -/
structure PortFrame where
  kind : Nat
  length : Nat
  seq : Nat
  payload : List Byte
deriving DecidableEq, Repr

/-- A received frame whose CRC is correct, opened; none also for a frame too short to hold a header (log entry 8). -/
def openPort (bytes : List Byte) : Option PortFrame := do
  let front ← checkCrc bytes
  let (kind, r) ← take1 front
  let (len, r) ← take2 r
  let (seq, r) ← take2 r
  some { kind := kind, length := len, seq := seq, payload := r }

/-- The payload of a POSITION frame. -/
def putPosFrame (f : PositionFrame) : List Byte :=
  put2 f.seq ++ putS4 f.x ++ putS4 f.y ++ putS4 f.z ++ putS2 f.vx ++ putS2 f.vy ++ putS2 f.vz ++ putS2 f.az
    ++ put1 f.gripCode

/-- The bytes of a POSITION frame; the header's sequence is not used. -/
def encodePosition (f : PositionFrame) : List Byte := portFrame 32 0 (putPosFrame f)

/-- The fields of a POSITION payload. -/
def takePosFrame (bs : List Byte) : Option (PositionFrame × List Byte) := do
  let (seq, r) ← take2 bs
  let (x, r) ← take4 r
  let (y, r) ← take4 r
  let (z, r) ← take4 r
  let (vx, r) ← take2 r
  let (vy, r) ← take2 r
  let (vz, r) ← take2 r
  let (az, r) ← take2 r
  let (g, r) ← take1 r
  some ({ seq := seq, x := signed4 x, y := signed4 y, z := signed4 z, vx := signed2 vx, vy := signed2 vy,
          vz := signed2 vz, az := signed2 az, gripCode := g }, r)

/-- The fields of an opened POSITION frame, where its length is the 23 bytes allowed (R199). -/
def positionOf (h : PortFrame) : Option PositionFrame :=
  if h.length = 23 ∧ h.payload.length = 23 then (takePosFrame h.payload).map (·.1) else none

/-- A POSITION frame with a correct CRC is usable: its length is 23 (R199, R219) and its grip state a code (R207). -/
def usablePosition (h : PortFrame) : Bool := ((positionOf h).bind fun f => gripOf f.gripCode).isSome

/-- The POSITION frame that a string of bytes is, where it passes R199. -/
def decodePosition (bytes : List Byte) : Option PositionFrame :=
  (openPort bytes).bind fun h => if h.kind = 32 then positionOf h else none

/-- A POSITION frame's fields fit their bytes. -/
def positionFrameFits (f : PositionFrame) : Bool :=
  fitsIn 16 f.seq && signedFits 32 f.x && signedFits 32 f.y && signedFits 32 f.z && signedFits 16 f.vx
    && signedFits 16 f.vy && signedFits 16 f.vz && signedFits 16 f.az && fitsIn 8 f.gripCode

end Sys2Proof.Machine.Codec
end

