-- ==== Sys2Proof/Machine/Arith.lean ====
section
/-! DEFINITION. The arithmetic of 00_scope.md: the rounding modes, the integer square root, clamping and saturating counters. -/

namespace Sys2Proof.Machine

/-- Ceiling division: the smallest integer not less than a / b, for b > 0. -/
def ceilDiv (a b : Int) : Int := -((-a).fdiv b)

/-- Floor division: the largest integer not greater than a / b, for b > 0. -/
def floorDiv (a b : Int) : Int := a.fdiv b

/-- Round half up: the nearest integer to a / b, an exact half to the greater integer, for b > 0. -/
def roundHalfUp (a b : Int) : Int := (2 * a + b).fdiv (2 * b)

/-- Round half away from zero: the nearest integer to a / b, an exact half to the integer of greater magnitude, for
b > 0. -/
def roundHalfAway (a b : Int) : Int :=
  if 0 ≤ a then roundHalfUp a b else -(roundHalfUp (-a) b)

/-- The bits of the integer square root from bit k - 1 down, starting from the root r found so far. -/
def isqrtBits : Nat → Nat → Nat → Nat
  | 0, _, r => r
  | k + 1, n, r =>
    let c := r + 2 ^ k
    if c * c ≤ n then isqrtBits k n c else isqrtBits k n r

/-- isqrt(n): the largest integer whose square does not exceed n. -/
def isqrt (n : Nat) : Nat := isqrtBits (n.log2 / 2 + 1) n 0

/-- clamp to [lo, hi]: a value below lo becomes lo, a value above hi becomes hi. -/
def clamp (lo hi v : Int) : Int := if v < lo then lo else if hi < v then hi else v

/-- A 16-bit counter or age raised by k: it stops at 65,535. -/
def satAdd (c k : Nat) : Nat := min 65535 (c + k)

/-- The magnitude of an integer as an integer. -/
def mag (v : Int) : Int := if v < 0 then -v else v

/-- The value after 65,535 is 1 (R12). -/
def nextNoticeSeq (s : Nat) : Nat := if s ≥ 65535 then 1 else s + 1

end Sys2Proof.Machine
end

