-- ==== Sys2Proof/Machine/ImageCheck.lean ====
section
/-! DEFINITION. The configuration image: CONFIGURE's application of values (R214), the required parameters and the checks
of START in their order (R215, R75, R98), and the image the blocks take (R216). -/

namespace Sys2Proof.Machine

/-- The image under construction: one value at most for each parameter and index (R214). -/
abbrev Draft := List (Param × Int)

/-- The value held for a parameter and index, or none. -/
def draftGet (d : Draft) (p : Param) : Option Int := (d.find? fun e => e.1 == p).map (·.2)

/-- The value held, 0 where there is none; read only after START has found it present. -/
def draftVal (d : Draft) (p : Param) : Int := (draftGet d p).getD 0

/-- One value applied: it replaces a value held for the same parameter and index (R214). -/
def draftPut (d : Draft) (p : Param) (v : Int) : Draft :=
  if d.any fun e => e.1 == p then d.map fun e => if e.1 == p then (p, v) else e else d ++ [(p, v)]

/-- Zones, rows and lanes are numbered from 1. -/
def upTo (n : Nat) : List Nat := (List.range n).map (· + 1)

/-- Whether the indices of a parameter lie in its index range (R213). -/
def indexOk : Param → Bool
  | .zoneKind z => decide (1 ≤ z ∧ z ≤ 16)
  | .zoneXStart z => decide (1 ≤ z ∧ z ≤ 16)
  | .zoneXEnd z => decide (1 ≤ z ∧ z ≤ 16)
  | .zoneYStart z => decide (1 ≤ z ∧ z ≤ 16)
  | .zoneYEnd z => decide (1 ≤ z ∧ z ≤ 16)
  | .zoneCeiling z => decide (1 ≤ z ∧ z ≤ 16)
  | .zoneBay z => decide (1 ≤ z ∧ z ≤ 16)
  | .rowCentre r => decide (1 ≤ r ∧ r ≤ 40)
  | .rowHalf r => decide (1 ≤ r ∧ r ≤ 40)
  | .lowerCount r => decide (1 ≤ r ∧ r ≤ 40)
  | .laneY r p => decide (1 ≤ r ∧ r ≤ 40 ∧ 1 ≤ p ∧ p ≤ 12)
  | _ => true

/-- The zone kinds by the value of their parameter. The spec lists the kinds and gives no codes: log entry 17. -/
def zoneKindOf : Int → Option ZoneKind
  | 0 => some .exclusive
  | 1 => some .truckBay
  | 2 => some .slow
  | 3 => some .noLoad
  | _ => none

/-- The ranges of R213, R97 and section 6.1; `run` and `span` are the lengths of the image. The division is a choice of
three values and a zone kind one of four; zone edges and bays are tested by R75. -/
def inRange (run span : Int) (p : Param) (v : Int) : Bool :=
  let r (lo hi : Int) : Bool := decide (lo ≤ v ∧ v ≤ hi)
  match p with
  | .runwayLength => r 20000 250000
  | .spanLength => r 5000 60000
  | .leftExtent => r 1000 20000
  | .rightExtent => r 1000 20000
  | .gantryVmax _ => r 100 4000
  | .gantryDec _ => r 50 1000
  | .trolleyVmax _ => r 100 4000
  | .trolleyDec _ => r 50 1000
  | .hoistVmax _ => r 100 4000
  | .reaction => r 0 1000
  | .creep => r 50 1000
  | .gapPeer => r 500 10000
  | .gapWall => r 0 5000
  | .clearance => r 0 2000
  | .tongHang => r 0 5000
  | .zMin => r 0 10000
  | .zMax => r 2000 30000
  | .travelHeight => r 0 30000
  | .unknownLeft => r 1000 20000
  | .unknownRight => r 1000 20000
  | .unknownVmax => r 100 4000
  | .unknownDec => r 50 1000
  | .unknownReaction => r 0 1000
  | .zoneCount => r 0 16
  | .zoneKind _ => (zoneKindOf v).isSome
  | .zoneXStart _ => r 0 run
  | .zoneXEnd _ => r 0 run
  | .zoneYStart _ => r 0 span
  | .zoneYEnd _ => r 0 span
  | .zoneCeiling _ => r 50 4000
  | .zoneBay _ => r 1 4
  | .rowCount => r 1 40
  | .saddleHeight => r 0 2000
  | .upperSeat => r 300 3000
  | .dmax => r 600 3000
  | .saddleMax => r 600 3000
  | .columnHalf => r 100 2000
  | .tierTolerance => r 0 500
  | .upperOversize => r 0 500
  | .widthTolerance => r 0 500
  | .upperRatio => r 10 150
  | .upperPenalty => r 0 1000
  | .rowCentre _ => r 0 run
  | .rowHalf _ => r 500 5000
  | .lowerCount _ => r 2 12
  | .laneY _ _ => r 0 span
  | .scaleSpan => r 1 65535
  | .calibratedZero => r (-8388608) 8388607
  | .zeroWindow => r 0 1000000
  | .tare => r 0 10000
  | .division => v == 10 || v == 20 || v == 50
  | .ratedCapacity => r 1000 60000
  | .toleranceKg => r 0 5000
  | .tolerancePm => r 0 200

/-- A failed check of START: the parameter with its index, and the check (R215). -/
abbrev ImageFail := Option (Param × ImageCheck)

/-- The parameters without an index or with a class index ahead of the zone table, in the order of R213. -/
def headParams : List Param :=
  [.runwayLength, .spanLength, .leftExtent, .rightExtent, .gantryVmax false, .gantryVmax true, .gantryDec false,
   .gantryDec true, .trolleyVmax false, .trolleyVmax true, .trolleyDec false, .trolleyDec true, .hoistVmax false,
   .hoistVmax true, .reaction, .creep, .gapPeer, .gapWall, .clearance, .tongHang, .zMin, .zMax, .travelHeight,
   .unknownLeft, .unknownRight, .unknownVmax, .unknownDec, .unknownReaction]

/-- The weighing parameters, in the order of R213. -/
def weighParams : List Param :=
  [.scaleSpan, .calibratedZero, .zeroWindow, .tare, .division, .ratedCapacity, .toleranceKg, .tolerancePm]

/-- The scalar parameters of the store geometry, less the row count, in the order of R213. -/
def storeParams : List Param :=
  [.saddleHeight, .upperSeat, .dmax, .saddleMax, .columnHalf, .tierTolerance, .upperOversize, .widthTolerance,
   .upperRatio, .upperPenalty]

/-- The number of zones, rows, and lower positions of a row that a draft states. -/
def draftZones (d : Draft) : Nat := (draftVal d .zoneCount).toNat
/-- The row count of a draft. -/
def draftRows (d : Draft) : Nat := (draftVal d .rowCount).toNat
/-- The lower count of a row of a draft. -/
def draftLanes (d : Draft) (r : Nat) : Nat := (draftVal d (.lowerCount r)).toNat

/-- The kind of a zone of a draft. -/
def draftKind (d : Draft) (z : Nat) : ZoneKind := (zoneKindOf (draftVal d (.zoneKind z))).getD .exclusive

/-- Every lane of every row of a draft. -/
def draftLaneParams (d : Draft) : List Param :=
  (upTo (draftRows d)).flatMap fun r => (upTo (draftLanes d r)).map fun p => Param.laneY r p

/-- The zones of a draft of one kind, by their numbers. -/
def zonesOfKind (d : Draft) (k : ZoneKind) : List Nat := (upTo (draftZones d)).filter fun z => draftKind d z == k

/-- The required parameters (R213), in the order of the parameter table; under an indexed parameter its indices rise
(log entry 18). -/
def required (d : Draft) : List Param :=
  let zs := upTo (draftZones d)
  let rs := upTo (draftRows d)
  headParams ++ [.zoneCount] ++ zs.map .zoneKind ++ zs.map .zoneXStart ++ zs.map .zoneXEnd
    ++ (zonesOfKind d .noLoad).map .zoneYStart ++ (zonesOfKind d .noLoad).map .zoneYEnd
    ++ (zonesOfKind d .slow).map .zoneCeiling ++ (zonesOfKind d .truckBay).map .zoneBay
    ++ [.rowCount] ++ storeParams ++ rs.map .rowCentre ++ rs.map .rowHalf ++ rs.map .lowerCount
    ++ draftLaneParams d ++ weighParams

/-- MISSING: the first of these parameters that holds no value (R215). -/
def firstMissing (d : Draft) (ps : List Param) : ImageFail :=
  (ps.find? fun p => (draftGet d p).isNone).map fun p => (p, .missing)

/-- The first of these parameters whose value lies outside its range. -/
def firstOutside (d : Draft) (check : ImageCheck) (ps : List Param) : ImageFail :=
  let run := draftVal d .runwayLength
  let span := draftVal d .spanLength
  (ps.find? fun p => !inRange run span p (draftVal d p)).map fun p => (p, check)

/-- One value that shapes the required set: tested for a value, then for its range (R215). -/
def shapeCheck (d : Draft) (p : Param) : ImageFail := (firstMissing d [p]).orElse fun _ => firstOutside d .range [p]

/-- The values that shape the required set, in their order (R215). -/
def shapeFail (d : Draft) : ImageFail :=
  (shapeCheck d .zoneCount).orElse fun _ =>
    ((upTo (draftZones d)).findSome? fun z => shapeCheck d (.zoneKind z)).orElse fun _ =>
      (shapeCheck d .rowCount).orElse fun _ =>
        (upTo (draftRows d)).findSome? fun r => shapeCheck d (.lowerCount r)

/-- A condition that must hold, or the parameter and check to name. -/
def demand (ok : Bool) (p : Param) (c : ImageCheck) : ImageFail := if ok then none else some (p, c)

/-- EXCLUSIVE and TRUCK_BAY zones are claim targets (R74). -/
def ZoneKind.claimable : ZoneKind → Bool
  | .exclusive => true
  | .truckBay => true
  | .slow => false
  | .noLoad => false

/-- The zones of a draft before zone z that are claim targets and whose x range overlaps zone z's, ends included
(R75). -/
def overlapsEarlier (d : Draft) (z : Nat) : Bool :=
  (upTo (z - 1)).any fun k =>
    (draftKind d k).claimable
      && decide (draftVal d (.zoneXStart k) ≤ draftVal d (.zoneXEnd z)
        ∧ draftVal d (.zoneXStart z) ≤ draftVal d (.zoneXEnd k))

/-- A TRUCK_BAY zone before zone z is bound to the same bay (R75). -/
def bayTaken (d : Draft) (z : Nat) : Bool :=
  (upTo (z - 1)).any fun k => draftKind d k == .truckBay && draftVal d (.zoneBay k) == draftVal d (.zoneBay z)

/-- The checks of one zone, the fields its kind uses first (R75); the field named of a pair is log entry 18. -/
def zoneFail (d : Draft) (z : Nat) : ImageFail :=
  let v := draftVal d
  let run := v .runwayLength
  let span := v .spanLength
  let k := draftKind d z
  (demand (decide (0 ≤ v (.zoneXStart z) ∧ v (.zoneXStart z) ≤ run)) (.zoneXStart z) .zone).orElse fun _ =>
  (demand (decide (v (.zoneXStart z) < v (.zoneXEnd z) ∧ v (.zoneXEnd z) ≤ run)) (.zoneXEnd z) .zone).orElse fun _ =>
  (demand (k != .noLoad || decide (0 ≤ v (.zoneYStart z) ∧ v (.zoneYStart z) ≤ span)) (.zoneYStart z) .zone).orElse fun _ =>
  (demand (k != .noLoad || decide (v (.zoneYStart z) < v (.zoneYEnd z) ∧ v (.zoneYEnd z) ≤ span)) (.zoneYEnd z) .zone).orElse fun _ =>
  (demand (k != .slow || inRange run span (.zoneCeiling z) (v (.zoneCeiling z))) (.zoneCeiling z) .zone).orElse fun _ =>
  (demand (k != .truckBay || inRange run span (.zoneBay z) (v (.zoneBay z))) (.zoneBay z) .zone).orElse fun _ =>
  (demand (k != .truckBay || !bayTaken d z) (.zoneBay z) .zone).orElse fun _ =>
  demand (!k.claimable || !overlapsEarlier d z) (.zoneXStart z) .zone

/-- The geometry checks of R98, in their order; the parameter named, and the walk of check 1, are log entry 18. -/
def geometryFail (d : Draft) : ImageFail :=
  let v := draftVal d
  let run := v .runwayLength
  let span := v .spanLength
  let rs := upTo (draftRows d)
  let half := v .columnHalf
  let lanes (f : Nat → Nat → ImageFail) : ImageFail :=
    rs.findSome? fun r => (upTo (draftLanes d r)).findSome? fun p => f r p
  (firstOutside d (.geometry 1) (rs.map .rowCentre ++ rs.map .rowHalf ++ draftLaneParams d ++ storeParams)).orElse fun _ =>
  (demand (decide (v .saddleMax ≤ v .dmax)) .saddleMax (.geometry 2)).orElse fun _ =>
  (rs.findSome? fun r => demand (decide (0 ≤ v (.rowCentre r) - v (.rowHalf r)
      ∧ v (.rowCentre r) + v (.rowHalf r) ≤ run)) (.rowCentre r) (.geometry 3)).orElse fun _ =>
  (rs.findSome? fun r => demand (r == 1 || decide (v (.rowCentre (r - 1)) + v (.rowHalf (r - 1))
      < v (.rowCentre r) - v (.rowHalf r))) (.rowCentre r) (.geometry 4)).orElse fun _ =>
  (lanes fun r p => demand (decide (0 ≤ v (.laneY r p) - half ∧ v (.laneY r p) + half ≤ span)) (.laneY r p)
      (.geometry 5)).orElse fun _ =>
  (lanes fun r p => demand (p == 1 || decide (2 * half < v (.laneY r p) - v (.laneY r (p - 1)))) (.laneY r p)
      (.geometry 6)).orElse fun _ =>
  demand (decide (v .saddleHeight + v .upperSeat + 2 * v .dmax + v .tongHang + v .clearance ≤ v .zMax)) .zMax
    (.geometry 7)

/-- START's validation (R215): the first failure, or none. -/
def imageFail (d : Draft) : ImageFail :=
  let v := draftVal d
  (shapeFail d).orElse fun _ =>
  (firstMissing d (required d)).orElse fun _ =>
  (firstOutside d .range (headParams ++ weighParams)).orElse fun _ =>
  (demand (decide (v .leftExtent + v .rightExtent < v .runwayLength)) .leftExtent .extents).orElse fun _ =>
  (demand (decide (v .zMin < v .zMax)) .zMin .zRange).orElse fun _ =>
  (demand (decide (v .zMin < v .travelHeight ∧ v .travelHeight ≤ v .zMax)) .travelHeight .travelHeight).orElse fun _ =>
  ((upTo (draftZones d)).findSome? fun z => zoneFail d z).orElse fun _ =>
  geometryFail d

/-- A zone of the table from the draft (R74). -/
def buildZone (d : Draft) (z : Nat) : Zone :=
  { id := z, kind := draftKind d z, x0 := draftVal d (.zoneXStart z), x1 := draftVal d (.zoneXEnd z),
    y0 := draftVal d (.zoneYStart z), y1 := draftVal d (.zoneYEnd z), ceiling := draftVal d (.zoneCeiling z),
    bay := (draftVal d (.zoneBay z)).toNat }

/-- A row of the geometry from the draft (R97). -/
def buildRow (d : Draft) (r : Nat) : Row :=
  { centre := draftVal d (.rowCentre r), half := draftVal d (.rowHalf r),
    lanes := (upTo (draftLanes d r)).map fun p => draftVal d (.laneY r p) }

/-- A value for each class from the draft. -/
def buildClass (d : Draft) (f : Bool → Param) : ByClass := ⟨draftVal d (f false), draftVal d (f true)⟩

/-- The image the blocks take from a draft that START validated (R216). -/
def buildImage (d : Draft) : Image :=
  let v := draftVal d
  let n (p : Param) : Nat := (v p).toNat
  { runway := v .runwayLength, span := v .spanLength, left := v .leftExtent, right := v .rightExtent,
    gantryVmax := buildClass d .gantryVmax, gantryDec := buildClass d .gantryDec,
    trolleyVmax := buildClass d .trolleyVmax, trolleyDec := buildClass d .trolleyDec,
    hoistVmax := buildClass d .hoistVmax, reaction := v .reaction, creep := v .creep, gapPeer := v .gapPeer,
    gapWall := v .gapWall, clearance := v .clearance, tongHang := v .tongHang, zMin := v .zMin, zMax := v .zMax,
    travelHeight := v .travelHeight,
    unknown := { left := n .unknownLeft, right := n .unknownRight, vmaxEmpty := n .unknownVmax,
                 decEmpty := n .unknownDec, vmaxLoaded := n .unknownVmax, decLoaded := n .unknownDec,
                 reaction := n .unknownReaction, creep := 0 },
    zones := (upTo (draftZones d)).map (buildZone d), rows := (upTo (draftRows d)).map (buildRow d),
    saddleHeight := v .saddleHeight, upperSeat := v .upperSeat, dmax := v .dmax, saddleMax := v .saddleMax,
    columnHalf := v .columnHalf, tierTolerance := v .tierTolerance, upperOversize := v .upperOversize,
    widthTolerance := v .widthTolerance, upperRatio := v .upperRatio, upperPenalty := v .upperPenalty,
    scaleSpan := v .scaleSpan, calibratedZero := v .calibratedZero, zeroWindow := v .zeroWindow, tare := v .tare,
    division := v .division, ratedCapacity := v .ratedCapacity, toleranceKg := v .toleranceKg,
    tolerancePm := v .tolerancePm }

/-- Whether a profile's values lie in the ranges the image allows for the own crane's values of the same kind (R35). -/
def profileInRange (p : Profile) : Bool :=
  let r (lo hi v : Nat) : Bool := decide (lo ≤ v ∧ v ≤ hi)
  r 1000 20000 p.left && r 1000 20000 p.right && r 100 4000 p.vmaxEmpty && r 50 1000 p.decEmpty
    && r 100 4000 p.vmaxLoaded && r 50 1000 p.decLoaded && r 0 1000 p.reaction && r 50 1000 p.creep

end Sys2Proof.Machine
end

