-- ==== Sys2Proof/Machine/State.lean ====
section
/-! DEFINITION. The state of the node, block by block, as plain data, and the state after reset. -/

namespace Sys2Proof.Machine

/-- RLC: node state, line access, schedules, counters (R27). A timer is the moment it runs out, or none. -/
structure Rlc where
  nodeState : NodeState
  straps : Option Straps
  craneNo : Option Nat
  pattern : Option Nat
  joinConfirmed : Bool
  queue : List TxItem
  access : Access
  attempts : Nat
  wire : List Byte
  lineBusy : Bool
  txSince : Nat
  txFail : Bool
  noticeSeq : Nat
  notices : List NoticeWindow
  truckWin : PerBay (Option TruckWindow)
  welcomed : List (Nat × Nat)
  welcomeDelays : List WelcomeDelay
  profileDelays : List Nat
  dupSeen : List Nat
  txDropped : Nat
  rxBad : Nat
  beaconDue : Option Nat
  profileDue : Option Nat
  joinDue : Option Nat
  joinEnd : Option Nat
  resumeEnd : Option Nat
  lastStop : StopCause
  lastFault : FaultCause
deriving DecidableEq, Repr

/-- PTB: the peer records, by rising crane number, and the PEER_TABLE_FULL memory (R46). -/
structure Ptb where
  peers : List Peer
  fullTold : Bool
deriving DecidableEq, Repr

/-- EPU: the permit record, the last one emitted with its time, the obstacle list, the POSITION_CLASH memory and the
time of the last computation, from which the refresh timer runs (R73). -/
structure Epu where
  record : PermitRecord
  lastEmitted : Option PermitSet
  lastEmitAt : Nat
  obstacles : Obstacles
  clash : List Nat
  computedAt : Nat
deriving DecidableEq, Repr

/-- CLU: the own claim list, oldest first, the conflict set and the SLOT_DOUBLE_HOLD memory (R96). -/
structure Clu where
  claims : List OwnClaim
  conflicts : List Nat
  doubleHeld : List (Nat × Nat)
deriving DecidableEq, Repr

/-- SMU: the slot records by rising id, none until START, and the notice tracking entries (R125, R42). -/
structure Smu where
  slots : List Slot
  tracking : List Track
deriving DecidableEq, Repr

/-- WGU: the weigh state (`base`, with a capture in progress it is the state before capture), zero, load class, class
window, overload count, capture-condition mark, session and last result (R150). -/
structure Wgu where
  base : WeighBase
  capture : Option Capture
  zero : Int
  loadClass : LoadClass
  window : List Int
  overCount : Nat
  mark : Bool
  session : Option Session
  last : Option WeighResult
deriving DecidableEq, Repr

/-- LCP: the latest good sample, the start of the 50 ms count of R127, and LC_BAD (R126). -/
structure Lcp where
  latest : Option RawSample
  since : Nat
  bad : Nat
deriving DecidableEq, Repr

/-- TBU: the truck records, required versions, pending requests and the TRUCK_VERSION_LIMIT memory (R172). -/
structure Tbu where
  trucks : PerBay Truck
  required : PerBay Nat
  requests : PerBay (Option TruckReq)
  limitTold : PerBay Bool
deriving DecidableEq, Repr

/-- MOC: the active order, the waiting orders, the ended records, newest first, and the untracked-load mark (R198,
R220). -/
structure Moc where
  active : Option Active
  waiting : List Order
  ended : List Ended
  untracked : Option UntrackedCause
deriving DecidableEq, Repr

/-- CPT: request buffer, last request memory, output queue, counters, held sample, slot stream and image (R217). -/
structure Cpt where
  reqBuf : List BufFrame
  lastReq : Option Answered
  out : List OutRecord
  outSeq : Nat
  sent : Option SentRecord
  lost : Nat
  dropped : Nat
  cpBad : Nat
  cpOverrun : Nat
  skipped : Nat
  old : Nat
  held : Option Sample
  takenAt : Nat
  staleTold : Bool
  sampleSeq : Option Nat
  excursion : Bool
  stream : Option Stream
  draft : List (Param × Int)
  image : Option Image
deriving DecidableEq, Repr

/-- The node: its factory serial, the ms clock since it left RESET, the count of random draws, the ten blocks, the
hand-ons still to be served inside a command, and the commands that wait. -/
structure State where
  serial : Nat
  now : Nat
  draws : Nat
  rlc : Rlc
  ptb : Ptb
  epu : Epu
  clu : Clu
  smu : Smu
  wgu : Wgu
  lcp : Lcp
  tbu : Tbu
  moc : Moc
  cpt : Cpt
  work : List Work
  pending : List Instr
deriving DecidableEq, Repr

/-- Faults. The spec names no condition that stops the part: FAULT is a node state (R24) and a request out of place is
answered (R201). -/
inductive Fault where
  /-- Raised by no command. Safe: the model never stops where the part goes on. -/
  | never
deriving DecidableEq, Repr

/-- Refusals. -/
inductive Refusal where
  /-- A command without a meaning. Raised by no arm of exec. Safe: the model stops where the part goes on. -/
  | notModelled (mnemonic : String)
deriving DecidableEq, Repr

/-- RLC at power-on and at the reset pin, with the last stop cause (R27). -/
def Rlc.fresh (cause : StopCause) : Rlc :=
  { nodeState := .reset, straps := none, craneNo := none, pattern := none, joinConfirmed := false,
    queue := [], access := .none, attempts := 0, wire := [], lineBusy := false, txSince := 0, txFail := false,
    noticeSeq := 0, notices := [], truckWin := PerBay.all none, welcomed := [], welcomeDelays := [],
    profileDelays := [], dupSeen := [], txDropped := 0, rxBad := 0, beaconDue := none, profileDue := none,
    joinDue := none, joinEnd := none, resumeEnd := none, lastStop := cause, lastFault := .none }

/-- PTB at power-on, at the reset pin and at RESTART (R46). -/
def Ptb.fresh : Ptb := { peers := [], fullTold := false }

/-- A permit of 0 with cause STATE (R68). -/
def Permit.stopped : Permit := { speed := 0, cause := .state }

/-- Six permits of 0 with cause STATE (R73). -/
def PermitSet.stopped : PermitSet := ⟨.stopped, .stopped, .stopped, .stopped, .stopped, .stopped⟩

/-- EPU at power-on and at the reset pin (R73). -/
def Epu.fresh : Epu :=
  { record := { permits := .stopped, free := none }, lastEmitted := none, lastEmitAt := 0,
    obstacles := ⟨[], [], [], []⟩, clash := [], computedAt := 0 }

/-- CLU at every start (R96). -/
def Clu.fresh : Clu := { claims := [], conflicts := [], doubleHeld := [] }

/-- SMU at power-on and at the reset pin (R125, R46). -/
def Smu.fresh : Smu := { slots := [], tracking := [] }

/-- WGU at power-on and at the reset pin (R150). The working zero before START is log entry 20. -/
def Wgu.fresh : Wgu :=
  { base := .unzeroed, capture := none, zero := 0, loadClass := .loaded, window := [], overCount := 0,
    mark := false, session := none, last := none }

/-- LCP at power-on and at the reset pin (R150). -/
def Lcp.fresh : Lcp := { latest := none, since := 0, bad := 0 }

/-- TBU at power-on and at the reset pin (R172). -/
def Tbu.fresh : Tbu :=
  { trucks := PerBay.all { version := 0, content := .noTruck }, required := PerBay.all 0,
    requests := PerBay.all none, limitTold := PerBay.all false }

/-- MOC at power-on and at the reset pin (R198, R220). -/
def Moc.fresh : Moc := { active := none, waiting := [], ended := [], untracked := none }

/-- CPT at power-on and at the reset pin (R217). -/
def Cpt.fresh : Cpt :=
  { reqBuf := [], lastReq := none, out := [], outSeq := 0, sent := none, lost := 0, dropped := 0, cpBad := 0,
    cpOverrun := 0, skipped := 0, old := 0, held := none, takenAt := 0, staleTold := false, sampleSeq := none,
    excursion := false, stream := none, draft := [], image := none }

/-- The node right after power-on: RESET, every block at the value of its reset table. The serial is log entry 4. -/
def State.reset : State :=
  { serial := 1, now := 0, draws := 0, rlc := Rlc.fresh .powerOn, ptb := Ptb.fresh, epu := Epu.fresh,
    clu := Clu.fresh, smu := Smu.fresh, wgu := Wgu.fresh, lcp := Lcp.fresh, tbu := Tbu.fresh, moc := Moc.fresh,
    cpt := Cpt.fresh, work := [], pending := [] }

end Sys2Proof.Machine
end

