-- ==== Sys2Proof/Machine/Geometry.lean ====
section
/-! DEFINITION. The store geometry and the zones as the blocks use them: slot ids and places (R99, R100), zones and bays
(R74, R76), footprints and overlap (R53). -/

namespace Sys2Proof.Machine

/-! ## Slots -/

/-- A slot's position in the store (R99): its row, its tier, and its lower or upper number. -/
structure SlotPos where
  row : Nat
  upper : Bool
  p : Nat
deriving DecidableEq, Repr

/-- The id of a position (R99). -/
def slotId (row : Nat) (upper : Bool) (p : Nat) : Nat := (row - 1) * 23 + (if upper then 12 + p else p)

/-- The position that an id from 1 to 920 names, whether or not the slot exists (R99). -/
def slotPos (id : Nat) : SlotPos :=
  let k := (id - 1) % 23 + 1
  { row := (id - 1) / 23 + 1, upper := decide (12 < k), p := if 12 < k then k - 12 else k }

/-- A row by its number. -/
def rowAt (img : Image) (r : Nat) : Option Row := if 1 ≤ r then img.rows[r - 1]? else none

/-- The lane y of lower position p of a row. -/
def laneAt (row : Row) (p : Nat) : Option Int := if 1 ≤ p then row.lanes[p - 1]? else none

/-- The existing upper and lower counts of a row (R97): n lowers and n - 1 uppers. -/
def tierCount (row : Row) (upper : Bool) : Nat := if upper then row.lanes.length - 1 else row.lanes.length

/-- Whether an id refers to an existing slot (R99). -/
def slotExists (img : Image) (id : Nat) : Bool :=
  let q := slotPos id
  decide (1 ≤ id ∧ id ≤ 920)
    && match rowAt img q.row with
       | none => false
       | some row => decide (1 ≤ q.p ∧ q.p ≤ tierCount row q.upper)

/-- The y of a position of a row: the lane's, or the mean of the two lanes below, floored (R100). -/
def posY (row : Row) (upper : Bool) (p : Nat) : Int :=
  let y (k : Nat) : Int := (laneAt row k).getD 0
  if upper then floorDiv (y p + y (p + 1)) 2 else y p

/-- The seat height of a tier (R100). -/
def seatHeight (img : Image) (upper : Bool) : Int :=
  if upper then img.saddleHeight + img.upperSeat else img.saddleHeight

/-- The place of an existing slot (R100). -/
def slotPlace (img : Image) (id : Nat) : Option Place :=
  let q := slotPos id
  if slotExists img id then
    (rowAt img q.row).map fun row =>
      { x := row.centre, y := posY row q.upper q.p, seat := seatHeight img q.upper }
  else none

/-- The ids of one row's existing slots, rising (R99). -/
def rowSlots (img : Image) (r : Nat) : List Nat :=
  match rowAt img r with
  | none => []
  | some row =>
    (upTo (tierCount row false)).map (slotId r false) ++ (upTo (tierCount row true)).map (slotId r true)

/-- The ids of every existing slot, rising (R99). -/
def allSlots (img : Image) : List Nat := (upTo img.rows.length).flatMap (rowSlots img)

/-- The upper slots that rest on lower position p and exist: upper p - 1 and upper p of the row's n - 1, by rising id
(R97, R113). -/
def uppersOver (img : Image) (r p : Nat) : List Nat :=
  match rowAt img r with
  | none => []
  | some row => ([p - 1, p].filter fun u => decide (1 ≤ u ∧ u ≤ tierCount row true)).map (slotId r true)

/-! ## Slot records -/

/-- The record of a slot, where one is held. -/
def slotRec (m : Smu) (id : Nat) : Option SlotRec := (m.slots.find? fun t => t.id == id).map (·.data)

/-- A slot record as it is after START (R125). -/
def SlotRec.fresh : SlotRec :=
  { content := .unknown, coil := {}, blocked := false, disputed := false, source := none }

/-- The slot map with one record replaced; an id without a record changes nothing. -/
def putSlot (m : Smu) (id : Nat) (r : SlotRec) : Smu :=
  { m with slots := m.slots.map fun t => if t.id == id then { t with data := r } else t }

/-- The slot map at the first START: one record for each existing slot (R125). -/
def formMap (img : Image) : List Slot := (allSlots img).map fun id => { id := id, data := SlotRec.fresh }

/-! ## Heights (R112, R113) -/

/-- The top of a slot by its tier and record (R112). -/
def recTop (img : Image) (upper : Bool) (r : SlotRec) : Int :=
  let d : Int := match r.coil.diameter with
    | some v => (v : Int)
    | none => img.dmax
  match r.content with
  | .empty => if upper then 0 else img.saddleHeight
  | .occupied => seatHeight img upper + d
  | .unknown => img.saddleHeight + img.upperSeat + img.dmax

/-- The top of a slot in the map; a slot without a record is reckoned as UNKNOWN. -/
def slotTop (img : Image) (m : Smu) (id : Nat) : Int :=
  recTop img (slotPos id).upper ((slotRec m id).getD SlotRec.fresh)

/-- The column top of lower position p of row r (R113). -/
def columnTop (img : Image) (m : Smu) (r p : Nat) : Int :=
  (uppersOver img r p).foldl (fun top id => max top (slotTop img m id)) (slotTop img m (slotId r false p))

/-- The column tops of a row, lower 1 first. -/
def columnTops (img : Image) (m : Smu) (r : Nat) : List Int :=
  match rowAt img r with
  | none => []
  | some row => (upTo (tierCount row false)).map (columnTop img m r)

/-- The row top: the largest of its column tops (R113). -/
def rowTop (img : Image) (m : Smu) (r : Nat) : Int := (columnTops img m r).foldl max 0

/-! ## Zones and bays -/

/-- A zone of the table by its id. -/
def zoneAt (img : Image) (z : Nat) : Option Zone := img.zones.find? fun t => t.id == z

/-- The TRUCK_BAY zone bound to a bay: the bay exists when there is one (R74). -/
def bayZone (img : Image) (bay : Nat) : Option Zone :=
  img.zones.find? fun t => t.kind == .truckBay && t.bay == bay && decide (1 ≤ bay ∧ bay ≤ 4)

/-- The bay that a target's zone is bound to, where it is a TRUCK_BAY zone. -/
def targetBay (img : Image) (t : Target) : Option Nat :=
  match t with
  | .slot _ => none
  | .other _ _ => none
  | .zone z =>
    match zoneAt img z with
    | none => none
    | some zn => if zn.kind = .truckBay then some zn.bay else none

/-- Whether a target may be claimed: an EXCLUSIVE or TRUCK_BAY zone of the table, or an existing slot (R76). -/
def targetOk (img : Image) (t : Target) : Bool :=
  match t with
  | .slot id => slotExists img id
  | .other _ _ => false
  | .zone z =>
    match zoneAt img z with
    | none => false
    | some zn => zn.kind.claimable

/-- The claimable zone whose x range contains x, where there is one (R178); R75 lets at most one contain it. -/
def zoneOver (img : Image) (x : Int) : Option Zone :=
  img.zones.find? fun z => z.kind.claimable && decide (z.x0 ≤ x ∧ x ≤ z.x1)

/-! ## Footprints (R53) -/

/-- An interval of the runway. -/
structure Span where
  lo : Int
  hi : Int
deriving DecidableEq, Repr

/-- Two intervals overlap; touching at one point counts (R53). -/
def Span.overlaps (a b : Span) : Bool := decide (a.lo ≤ b.hi ∧ b.lo ≤ a.hi)

/-- The x range of a zone. -/
def Zone.xs (z : Zone) : Span := ⟨z.x0, z.x1⟩

/-- The own footprint at an x (R53). -/
def footprint (img : Image) (x : Int) : Span := ⟨x - img.left, x + img.right⟩

/-- The profile values of a peer: its profile, or the unknown-peer values (R36). -/
def peerProfile (img : Image) (p : Peer) : Profile := p.profile.getD img.unknown

/-- A peer's footprint, from its reported x (R90). -/
def peerFootprint (img : Image) (p : Peer) : Span :=
  let q := peerProfile img p
  ⟨p.x - (q.left : Int), p.x + (q.right : Int)⟩

/-- The place of a trailer position: the bay zone's x start + x offset, and y; the seat is the deck (R151, R182). -/
def trailerPlace (zn : Zone) (deck : Nat) (p : Position) : Place :=
  { x := zn.x0 + (p.xOffset : Int), y := (p.y : Int), seat := (deck : Int) }

end Sys2Proof.Machine
end

