-- ==== Sys2Proof/Machine/Flags.lean ====
section
/-! DEFINITION. The flags and conditions that more than one block reads, each computed from the state: staleness and age
of the own sample (R210), the weigh state (R142), STALE of a bay (R155), the state of the image (R214), the states a
request is accepted in (R201). -/

namespace Sys2Proof.Machine

/-- What a block reads as the held sample while none has been taken (R210). -/
def Sample.absent : Sample :=
  { x := 0, y := 0, z := 0, vx := 0, vy := 0, vz := 0, az := 0, grip := .moving, seq := 0 }

/-- The held sample as the blocks read it (R210). -/
def State.sample (s : State) : Sample := s.cpt.held.getD Sample.absent

/-- The own position sample is stale: 100 ms have passed since the last taken sample, or none has been taken (R210). -/
def State.sampleStale (s : State) : Bool := s.cpt.held.isNone || decide (s.cpt.takenAt + 100 ≤ s.now)

/-- The sample age: ms since the last taken sample, stopping at 65,535, and 65,535 while none has been taken (R209). -/
def State.sampleAge (s : State) : Nat :=
  if s.cpt.held.isNone then 65535 else min 65535 (s.now - s.cpt.takenAt)

/-- The time stamp of outgoing records: ms since the node left RESET, modulo 2^32 (R203). -/
def State.stamp (s : State) : Nat := s.now % 4294967296

/-- The weigh state as reported (R141, R142). -/
def weighView (w : Wgu) : WeighView :=
  match w.capture with
  | some c => .capturing c.kind
  | none => .base w.base

/-- Weighing is trusted while the weigh state is READY and in no other state (R142). -/
def trusted (w : Wgu) : Bool := w.capture.isNone && w.base == .ready

/-- The load cell is lost exactly while the weigh state is LOCKED with cause SENSOR (R127). -/
def cellLost (w : Wgu) : Bool := w.base == .locked .sensor

/-- A bay is STALE for this node while its own version is below the required version (R155). -/
def bayStale (t : Tbu) (bay : Nat) : Bool := decide ((t.trucks.get bay).version < t.required.get bay)

/-- The state of the image (R214). -/
def imageState (c : Cpt) : ImageState :=
  match c.image, c.draft with
  | some _, _ => .validated
  | none, [] => .none
  | none, _ => .partly

/-- The crane number a strap reading gives (R16). -/
def strapNumber (t : Straps) : Option Nat :=
  if t.value.val = 0 then (if t.eighthTied then some 8 else none) else some t.value.val

/-- The highest version seen for a bay over all records, 0 with none (R41). -/
def highestSeen (p : Ptb) (bay : Nat) : Nat := p.peers.foldl (fun v q => max v (q.versions.get bay)) 0

/-- The peer record of a crane number. -/
def peerAt (p : Ptb) (n : Nat) : Option Peer := p.peers.find? fun q => q.n == n

/-- The sending states in which R4 watches for a node that cannot get frames out. -/
def watchesTx (r : Rlc) : Bool :=
  match r.nodeState with
  | .joining => true
  | .running => true
  | .resuming => true
  | .parked => true
  | .fault => r.lastFault == .duplicateNumber
  | .reset => false
  | .config => false

/-- Whether the active order has a bay as its source or as its destination, given or in use (R156, R171). -/
def usesBay (m : Moc) (bay : Nat) : Bool :=
  match m.active with
  | none => false
  | some a =>
    (match a.ord.source with
      | .bay b _ => b == bay
      | .slot _ => false)
    || (match a.ord.dest with
      | .bay b => b == bay
      | .slot _ => false
      | .area _ _ _ => false)
    || (match a.destUse with
      | some (.position b _) => b == bay
      | some (.slot _) => false
      | none => false)

/-- The kind of a request. -/
def reqKind : Request → ReqKind
  | .configure _ => .configure
  | .start => .start
  | .restart => .restart
  | .park => .park
  | .unpark => .unpark
  | .submitOrder _ => .submitOrder
  | .cancelOrder _ => .cancelOrder
  | .redirect _ _ => .redirect
  | .truckArrive _ _ => .truckArrive
  | .truckReady _ => .truckReady
  | .truckHold _ => .truckHold
  | .truckDepart _ => .truckDepart
  | .mapLoad _ _ _ => .mapLoad
  | .slotBlock _ => .slotBlock
  | .slotUnblock _ => .slotUnblock
  | .claimForceClear _ => .claimForceClear
  | .weighVerifyZero => .weighVerifyZero
  | .weighVerifySpan _ => .weighVerifySpan
  | .readStatus => .readStatus
  | .readSlot _ => .readSlot
  | .readSlots _ _ => .readSlots
  | .readPeer _ => .readPeer
  | .readTruck _ => .readTruck
  | .readOrder _ => .readOrder

/-- The reads: served in every state but RESET, and never remembered (R14, R202). -/
def isRead : ReqKind → Bool
  | .readStatus => true
  | .readSlot => true
  | .readSlots => true
  | .readPeer => true
  | .readTruck => true
  | .readOrder => true
  | _ => false

/-- The node states in which a request is accepted (R14, 9.2). -/
def acceptedIn (k : ReqKind) (st : NodeState) : Bool :=
  match k with
  | .configure => st == .config
  | .start => st == .config
  | .restart => st != .reset
  | .unpark => st == .parked
  | .readStatus => st != .reset
  | .readSlot => st != .reset
  | .readSlots => st != .reset
  | .readPeer => st != .reset
  | .readTruck => st != .reset
  | .readOrder => st != .reset
  | _ => st == .running

end Sys2Proof.Machine
end

