-- ==== Sys2Proof/Machine/Ops.lean ====
section
/-! DEFINITION. The operations every block uses: the clock, random draws, events and the output queue (R203, R204),
responses (R201, R202), the transmit queue and its line access (R1 to R3), beacons, profiles, notices and TRUCK_STATE
windows (R7, R8, R12, R13). -/

namespace Sys2Proof.Machine

/-! ## Clock, draws, hand-ons -/

/-- The clock moved on to a moment, where it has not reached it (log entry 1). -/
def State.reach (s : State) (t : Nat) : State := { s with now := max s.now t }

/-- The random number that the next draw gives (log entry 5). -/
def State.drawn (s : State) : Nat := Config.draw s.draws

/-- The draw taken. -/
def State.drew (s : State) : State := { s with draws := s.draws + 1 }

/-- A hand-on added behind those still to be served. -/
def State.hand (s : State) (w : Work) : State := { s with work := s.work ++ [w] }

/-! ## Output queue (R203, R204) -/

/-- A record is an event. -/
def isEvent (b : OutBody) : Bool :=
  match b with
  | .event _ => true
  | .response _ => false
  | .permit _ _ => false
  | .target _ _ _ _ _ => false
  | .stream _ _ _ => false

/-- A record is a response. -/
def isResponse (b : OutBody) : Bool :=
  match b with
  | .response _ => true
  | .event _ => false
  | .permit _ _ => false
  | .target _ _ _ _ _ => false
  | .stream _ _ _ => false

/-- A record is a PERMIT. -/
def isPermit (b : OutBody) : Bool :=
  match b with
  | .permit _ _ => true
  | .response _ => false
  | .event _ => false
  | .target _ _ _ _ _ => false
  | .stream _ _ _ => false

/-- A record is a TARGET. -/
def isTarget (b : OutBody) : Bool :=
  match b with
  | .target _ _ _ _ _ => true
  | .response _ => false
  | .event _ => false
  | .permit _ _ => false
  | .stream _ _ _ => false

/-- A record is a slot stream record. -/
def isStream (b : OutBody) : Bool :=
  match b with
  | .stream _ _ _ => true
  | .response _ => false
  | .event _ => false
  | .permit _ _ => false
  | .target _ _ _ _ _ => false

/-- The number of waiting records of a sort. -/
def waitingOut (p : OutBody → Bool) (out : List OutRecord) : Nat := (out.filter fun r => p r.body).length

/-- A record at the tail of the output queue. -/
def pushOut (c : Cpt) (stamp : Nat) (b : OutBody) : Cpt := { c with out := c.out ++ [{ stamp := stamp, body := b }] }

/-- A PERMIT or TARGET offered: it takes the place of a waiting one of its sort, else the tail (R203). -/
def placeOut (p : OutBody → Bool) (c : Cpt) (stamp : Nat) (b : OutBody) : Cpt :=
  if c.out.any fun r => p r.body then
    { c with out := c.out.map fun r => if p r.body then { stamp := stamp, body := b } else r }
  else pushOut c stamp b

/-- An event dropped and counted (R204); the lost count stops at 65,535 like EVENT_DROPPED (log entry 67). -/
def dropEvent (c : Cpt) : Cpt := { c with dropped := satAdd c.dropped 1, lost := satAdd c.lost 1 }

/-- An event offered (R204): dropped while 48 wait; after a drop it is queued only with two places free, behind
EVENTS_LOST, and the lost count returns to 0. -/
def offerEvent (c : Cpt) (stamp : Nat) (e : Event) : Cpt :=
  let n := waitingOut isEvent c.out
  if c.lost = 0 then
    if n < 48 then pushOut c stamp (.event e) else dropEvent c
  else if n + 2 ≤ 48 then
    { pushOut (pushOut c stamp (.event (.eventsLost c.lost))) stamp (.event e) with lost := 0 }
  else dropEvent c

/-- An event raised by a block. -/
def State.emit (s : State) (e : Event) : State := { s with cpt := offerEvent s.cpt s.stamp e }

/-- A PERMIT offered (R205). -/
def State.emitPermit (s : State) : State :=
  { s with cpt := placeOut isPermit s.cpt s.stamp (.permit s.rlc.nodeState s.epu.record) }

/-- A TARGET offered (R205). -/
def State.emitTarget (s : State) (order : Nat) (p : TargetPhase) (x y z : Int) : State :=
  { s with cpt := placeOut isTarget s.cpt s.stamp (.target order p x y z) }

/-- A response queued (R201). -/
def State.queueResponse (s : State) (r : Response) : State := { s with cpt := pushOut s.cpt s.stamp (.response r) }

/-! ## Transmit queue (R1 to R3) -/

/-- The head frame's line access begins: a backoff of 0 to 15 slots is drawn; the count runs while the line is idle. -/
def State.beginAttempt (s : State) : State :=
  match s.rlc.queue with
  | [] => { s with rlc.access := .none, rlc.attempts := 0, rlc.wire := [] }
  | _ :: _ =>
    let b := s.drawn % 16
    { s.drew with rlc.access := (if s.rlc.lineBusy then .suspended b else .counting b), rlc.wire := [] }

/-- The frames that wait: the queue less a frame being sent (log entry 11). -/
def waitingFrames (r : Rlc) : List TxItem :=
  match r.access with
  | .sending => r.queue.drop 1
  | _ => r.queue

/-- A frame that is filled in when an attempt starts: BEACON and PROFILE (R1). -/
def isRefilled (i : TxItem) : Bool :=
  match i with
  | .beacon => true
  | .profile => true
  | .fixed _ => false

/-- A frame offered to the transmit queue (R1): a BEACON or PROFILE takes the place of a waiting one, and as the head
frame starts its attempts anew (log entry 11); a frame meeting 16 frames is dropped and counted; otherwise it joins the
tail, and as the only frame begins its line access. -/
def State.offer (s : State) (i : TxItem) : State :=
  if isRefilled i ∧ i ∈ waitingFrames s.rlc then
    if s.rlc.queue.head? = some i ∧ s.rlc.access ≠ .sending then { s with rlc.attempts := 0 } else s
  else if 16 ≤ s.rlc.queue.length then { s with rlc.txDropped := satAdd s.rlc.txDropped 1 }
  else
    let t := { s with rlc.queue := s.rlc.queue ++ [i] }
    if s.rlc.queue = [] then t.beginAttempt else t

/-- The head frame leaves the queue, and the next one begins its own line access (R3). -/
def State.dropHead (s : State) : State :=
  State.beginAttempt { s with rlc.queue := s.rlc.queue.drop 1, rlc.attempts := 0 }

/-- The queue emptied, on entering RESET, CONFIG and JOINING (R1). -/
def State.clearQueue (s : State) : State :=
  { s with rlc.queue := [], rlc.access := .none, rlc.attempts := 0, rlc.wire := [] }

/-- On entering FAULT every frame but a BEACON is removed (R1, R24); the wait of a removed head frame ends and the next
head frame draws its own backoff (R2). -/
def State.keepBeacon (s : State) : State :=
  let kept := s.rlc.queue.filter fun i => i == .beacon
  let t := { s with rlc.queue := kept }
  if s.rlc.queue.head? = some .beacon then t else State.beginAttempt { t with rlc.attempts := 0 }

/-! ## Frames of the own node -/

/-- The version a claim entry states: that of the bound bay's record for a TRUCK_BAY zone, else none (R85). -/
def entryVersion (s : State) (t : Target) : Option Nat :=
  match s.cpt.image with
  | none => none
  | some img => (targetBay img t).map fun bay => (s.tbu.trucks.get bay).version

/-- The claim entries of a BEACON: own entries in ASKING or HELD, in the order of the list (R7, R85). -/
def beaconEntries (s : State) : List ClaimEntry :=
  (s.clu.claims.filter fun c => c.state != .waiting).map fun c =>
    { target := c.target, held := c.state == .held, prio := c.prio, version := entryVersion s c.target }

/-- The node state a BEACON states: RESUMING states RUNNING (R23); BEACONs go out in no other state than these (R14). -/
def lineState : NodeState → LineState
  | .running => .running
  | .resuming => .running
  | .parked => .parked
  | .fault => .fault
  | .joining => .joining
  | .reset => .joining
  | .config => .joining

/-- The BEACON as it stands (R7). -/
def fillBeacon (s : State) : Beacon :=
  { state := lineState s.rlc.nodeState, valid := !s.sampleStale, x := s.sample.x, vx := s.sample.vx,
    age := s.sampleAge, loadClass := s.wgu.loadClass, noticeSeq := s.rlc.noticeSeq, claims := beaconEntries s }

/-- The PROFILE from the image (R8). -/
def fillProfile (s : State) : Profile :=
  match s.cpt.image with
  | none => { left := 0, right := 0, vmaxEmpty := 0, decEmpty := 0, vmaxLoaded := 0, decLoaded := 0, reaction := 0,
              creep := 0 }
  | some g =>
    { left := g.left.toNat, right := g.right.toNat, vmaxEmpty := g.gantryVmax.empty.toNat,
      decEmpty := g.gantryDec.empty.toNat, vmaxLoaded := g.gantryVmax.loaded.toNat,
      decLoaded := g.gantryDec.loaded.toNat, reaction := g.reaction.toNat, creep := g.creep.toNat }

/-- What a queued frame carries on the line at this moment (R1). -/
def fillItem (s : State) (i : TxItem) : FrameBody :=
  match i with
  | .beacon => .beacon (fillBeacon s)
  | .profile => .profile (fillProfile s)
  | .fixed b => b

/-- The own node's frame around a payload: its crane number and serial (1.3). A node without a crane number sends
nothing (R24). -/
def ownFrame (s : State) (b : FrameBody) : Frame := { sender := s.rlc.craneNo.getD 0, serial := s.serial, body := b }

/-- The JOIN as it stands: check pattern, and x of the held sample, 0 while none has been taken (R9). -/
def joinBody (s : State) : FrameBody := .join (s.rlc.pattern.getD 0) s.sample.x

/-- The TRUCK_STATE of a bay as its record stands (R13). -/
def truckBody (s : State) (bay : Nat) : FrameBody :=
  .truckState bay (s.tbu.trucks.get bay).version (s.tbu.trucks.get bay).content

/-! ## Schedules -/

/-- A PROFILE queued; the next falls due 5,000 ms later (R8). -/
def State.queueProfile (s : State) : State := State.offer { s with rlc.profileDue := some (s.now + 5000) } .profile

/-- The NOTICE repeats that go with a queued BEACON (R12). -/
def State.repeatNotices (s : State) : State :=
  let t := s.rlc.notices.foldl (fun t w => t.offer (.fixed (.notice w.notice))) s
  { t with rlc.notices :=
      (s.rlc.notices.map fun w => { w with left := w.left - 1 }).filter fun w => decide (0 < w.left) }

/-- The TRUCK_STATE repeat of one bay that goes with a queued BEACON (R13). -/
def State.repeatTruck (s : State) (bay : Nat) : State :=
  match s.rlc.truckWin.get bay with
  | none => s
  | some w =>
    let left := if w.left ≤ 1 then none else some { w with left := w.left - 1 }
    State.offer { s with rlc.truckWin := s.rlc.truckWin.set bay left } (.fixed (truckBody s bay))

/-- The interval that a BEACON queued now starts: 100 ms plus a jitter of 0 to 20 ms in RUNNING and RESUMING, else
1,000 ms (R7). -/
def State.startInterval (s : State) : State :=
  match s.rlc.nodeState with
  | .running => { s.drew with rlc.beaconDue := some (s.now + 100 + s.drawn % 21) }
  | .resuming => { s.drew with rlc.beaconDue := some (s.now + 100 + s.drawn % 21) }
  | _ => { s with rlc.beaconDue := some (s.now + 1000) }

/-- A BEACON queued with the repeats that fall due with it, and a new interval (R7, R12, R13). -/
def State.queueBeacon (s : State) : State :=
  ((((((s.startInterval).offer .beacon).repeatNotices).repeatTruck 1).repeatTruck 2).repeatTruck 3).repeatTruck 4

/-- An own slot-map change numbered and queued as a NOTICE, with two repeats to come; a ninth notice takes the place of
the oldest (R12). -/
def State.issueNotice (s : State) (slot : Nat) (kind : NoticeKind) (coil : Coil) : State :=
  let seq := nextNoticeSeq s.rlc.noticeSeq
  let n : Notice := { seq := seq, slot := slot, kind := kind, coil := coil }
  let kept := if 8 ≤ s.rlc.notices.length then s.rlc.notices.drop 1 else s.rlc.notices
  State.offer { s with rlc.noticeSeq := seq, rlc.notices := kept ++ [{ notice := n, left := 2 }] } (.fixed (.notice n))

/-- A change window of TRUCK_STATE sends: one at once and two with coming BEACONs (R13). -/
def State.openChangeWindow (s : State) (bay : Nat) : State :=
  State.offer { s with rlc.truckWin := s.rlc.truckWin.set bay (some { release := false, left := 2 }) }
    (.fixed (truckBody s bay))

/-- A release window of TRUCK_STATE sends: five with coming BEACONs (R13). -/
def State.openReleaseWindow (s : State) (bay : Nat) : State :=
  { s with rlc.truckWin := s.rlc.truckWin.set bay (some { release := true, left := 5 }) }

end Sys2Proof.Machine
end

