-- ==== Sys2Proof/Machine/Permits.lean ====
section
/-! DEFINITION. The EPU (chapter 3): peer envelopes, obstacles, permits with their causes, the whole-record computation and
its emission. Everything here reads the state once and writes only the EPU and the output queue (R71). -/

namespace Sys2Proof.Machine

/-! ## Own values (R48) and peer envelopes (R49 to R51) -/

/-- The value of the column the load class selects: EMPTY values for EMPTY, LOADED values otherwise (R48). -/
def ByClass.pick (b : ByClass) (c : LoadClass) : Int :=
  match c with
  | .empty => b.empty
  | .loaded => b.loaded
  | .overload => b.loaded

/-- The reaction allowance of an axis: ceiling(Vmax × reaction time / 1000) (R48). -/
def allowance (img : Image) (vmax : Int) : Int := ceilDiv (vmax * img.reaction) 1000

/-- The age τ of a peer: the time since the position in its record was true, saturating at 65,535 (R49). -/
def peerAge (now : Nat) (p : Peer) : Nat := min 65535 (now - p.arrival + p.age)

/-- A peer counts with its EMPTY values only when its load class is EMPTY (R36). -/
def countsEmpty (p : Peer) : Bool := p.loadClass == some .empty

/-- The gantry Vmax of a peer for its class (R36). -/
def peerVmax (img : Image) (p : Peer) : Int :=
  let q := peerProfile img p
  if countsEmpty p then (q.vmaxEmpty : Int) else (q.vmaxLoaded : Int)

/-- The gantry deceleration of a peer for its class (R36). -/
def peerDec (img : Image) (p : Peer) : Int :=
  let q := peerProfile img p
  if countsEmpty p then (q.decEmpty : Int) else (q.decLoaded : Int)

/-- The growth g of a peer: 0 for a PARKED peer that is LIVE or STALE, else ceiling(τ × Vmax / 1000) (R50). -/
def growth (img : Image) (now : Nat) (p : Peer) : Int :=
  if p.nodeState = some .parked ∧ p.liveness ≠ .lost then 0
  else ceilDiv ((peerAge now p : Int) * peerVmax img p) 1000

/-- The stopping term s and reaction term r together: ceiling(vx² / (2a)) + ceiling(|vx| × reaction / 1000) (R51). -/
def travelTerm (img : Image) (p : Peer) : Int :=
  ceilDiv (p.vx * p.vx) (2 * peerDec img p) + ceilDiv (mag p.vx * (peerProfile img p).reaction) 1000

/-- The envelope of a peer, clamped to the runway (R51). -/
def envelope (img : Image) (now : Nat) (p : Peer) : Span :=
  let q := peerProfile img p
  let g := growth img now p
  let t := travelTerm img p
  let lo := p.x - (q.left : Int) - g - (if p.vx < 0 then t else 0)
  let hi := p.x + (q.right : Int) + g + (if 0 < p.vx then t else 0)
  ⟨clamp 0 img.runway lo, clamp 0 img.runway hi⟩

/-- The peers counted on the + side: x_j ≥ x0 (R52). -/
def plusPeers (s : State) : List Peer := s.ptb.peers.filter fun p => decide (s.sample.x ≤ p.x)

/-- The peers counted on the − side: x_j ≤ x0 (R52). -/
def minusPeers (s : State) : List Peer := s.ptb.peers.filter fun p => decide (p.x ≤ s.sample.x)

/-! ## Obstacles (R53 to R62) -/

/-- The own claim list holds a HELD claim on a target (R56). -/
def claimHeld (s : State) (t : Target) : Bool := s.clu.claims.any fun c => c.target == t && c.state == .held

/-- The load bottom: z − tong hang − D (R58). -/
def loadBottom (s : State) (img : Image) : Int :=
  let d : Int := match s.wgu.loadClass with
    | .empty => 0
    | _ => match s.moc.active.bind fun a => a.coil.diameter with
      | some v => (v : Int)
      | none => img.dmax
  s.sample.z - img.tongHang - d

/-- The conditions of R56 that do not depend on the direction: a claimable zone, not HELD, not under the footprint. -/
def zoneBars (s : State) (img : Image) (z : Zone) : Bool :=
  z.kind.claimable && !claimHeld s (.zone z.id) && !(footprint img s.sample.x).overlaps z.xs

/-- The conditions of R57 that do not depend on the direction. -/
def noLoadBarsX (s : State) (img : Image) (z : Zone) : Bool :=
  z.kind == .noLoad && s.wgu.loadClass != .empty && decide (z.y0 ≤ s.sample.y ∧ s.sample.y ≤ z.y1)
    && !(footprint img s.sample.x).overlaps z.xs

/-- The conditions of R61 that do not depend on the direction. -/
def noLoadBarsY (s : State) (z : Zone) : Bool :=
  z.kind == .noLoad && s.wgu.loadClass != .empty && decide (z.x0 ≤ s.sample.x ∧ s.sample.x ≤ z.x1)
    && decide (s.sample.y < z.y0 ∨ z.y1 < s.sample.y)

/-- The cause a barring zone names (R69). -/
def zoneCause (z : Zone) : Cause := if z.kind = .noLoad then .noLoad z.id else .zone z.id

/-- A row counts while the load bottom is below row top + clearance margin (R59). -/
def rowBars (s : State) (img : Image) (r : Nat) : Bool :=
  decide (loadBottom s img < rowTop img s.smu r + img.clearance)

/-- The gantry + obstacles (R54 to R59). -/
def gantryPlusObstacles (s : State) (img : Image) : List Obstacle :=
  let x := s.sample.x
  let bumper := x + img.right
  let peers := (plusPeers s).map fun p =>
    ({ d := (envelope img s.now p).lo - bumper - img.gapPeer, cause := .peer p.n } : Obstacle)
  let zones := (img.zones.filter fun z => (zoneBars s img z || noLoadBarsX s img z) && decide (bumper < z.x0)).map
    fun z => ({ d := z.x0 - bumper - img.gapWall, cause := zoneCause z } : Obstacle)
  let rows := (upTo img.rows.length).filterMap fun r =>
    match rowAt img r with
    | none => none
    | some row =>
      if rowBars s img r = true ∧ x < row.centre then
        some ({ d := row.centre - row.half - x - img.gapWall, cause := .row r } : Obstacle)
      else none
  peers ++ [{ d := img.runway - bumper - img.gapWall, cause := .runwayEnd }] ++ zones ++ rows

/-- The gantry − obstacles (R54 to R59). -/
def gantryMinusObstacles (s : State) (img : Image) : List Obstacle :=
  let x := s.sample.x
  let bumper := x - img.left
  let peers := (minusPeers s).map fun p =>
    ({ d := bumper - (envelope img s.now p).hi - img.gapPeer, cause := .peer p.n } : Obstacle)
  let zones := (img.zones.filter fun z => (zoneBars s img z || noLoadBarsX s img z) && decide (z.x1 < bumper)).map
    fun z => ({ d := bumper - z.x1 - img.gapWall, cause := zoneCause z } : Obstacle)
  let rows := (upTo img.rows.length).filterMap fun r =>
    match rowAt img r with
    | none => none
    | some row =>
      if rowBars s img r = true ∧ row.centre < x then
        some ({ d := x - (row.centre + row.half) - img.gapWall, cause := .row r } : Obstacle)
      else none
  peers ++ [{ d := bumper - 0 - img.gapWall, cause := .runwayEnd }] ++ zones ++ rows

/-- The columns counted for the trolley: in every row whose band contains the hook, each lower position whose column
top is above the load bottom less the clearance (R62), with its lane y. -/
def barringColumns (s : State) (img : Image) : List (Nat × Int) :=
  (upTo img.rows.length).flatMap fun r =>
    match rowAt img r with
    | none => []
    | some row =>
      if mag (s.sample.x - row.centre) ≤ row.half then
        ((upTo row.lanes.length).filter fun p =>
            decide (loadBottom s img < columnTop img s.smu r p + img.clearance)).map
          fun p => (slotId r false p, (laneAt row p).getD 0)
      else []

/-- The trolley + obstacles (R60 to R62). -/
def trolleyPlusObstacles (s : State) (img : Image) : List Obstacle :=
  let y := s.sample.y
  let zones := (img.zones.filter fun z => noLoadBarsY s z && decide (y < z.y0)).map
    fun z => ({ d := z.y0 - y - img.gapWall, cause := .noLoad z.id } : Obstacle)
  let columns := ((barringColumns s img).filter fun c => decide (y < c.2)).map
    fun c => ({ d := c.2 - img.columnHalf - y - img.gapWall, cause := .column c.1 } : Obstacle)
  [{ d := img.span - y - img.gapWall, cause := .spanEnd }] ++ zones ++ columns

/-- The trolley − obstacles (R60 to R62). -/
def trolleyMinusObstacles (s : State) (img : Image) : List Obstacle :=
  let y := s.sample.y
  let zones := (img.zones.filter fun z => noLoadBarsY s z && decide (z.y1 < y)).map
    fun z => ({ d := y - z.y1 - img.gapWall, cause := .noLoad z.id } : Obstacle)
  let columns := ((barringColumns s img).filter fun c => decide (c.2 < y)).map
    fun c => ({ d := y - (c.2 + img.columnHalf) - img.gapWall, cause := .column c.1 } : Obstacle)
  [{ d := y - 0 - img.gapWall, cause := .spanEnd }] ++ zones ++ columns

/-- The obstacle list of a computation (R53). -/
def obstaclesOf (s : State) (img : Image) : Obstacles :=
  { gantryPlus := gantryPlusObstacles s img, gantryMinus := gantryMinusObstacles s img,
    trolleyPlus := trolleyPlusObstacles s img, trolleyMinus := trolleyMinusObstacles s img }

/-! ## From distance to permit (R63 to R67, R69) -/

/-- The order of R69 between two limits: the smaller value, then the earlier cause, then the lower number. -/
def comesFirst (v1 : Int) (c1 : Cause) (v2 : Int) (c2 : Cause) : Bool :=
  decide (v1 < v2) || (v1 == v2
    && (decide (Codec.causeCode c1 < Codec.causeCode c2)
      || (Codec.causeCode c1 == Codec.causeCode c2 && decide (Codec.causeArg c1 < Codec.causeArg c2))))

/-- The nearest obstacle of a list: the smallest free distance, ties by R69. -/
def nearest : List Obstacle → Option Obstacle
  | [] => none
  | o :: os =>
    match nearest os with
    | none => some o
    | some b => if comesFirst b.d b.cause o.d o.cause then some b else some o

/-- The least of some limits, ties by R69, starting from one of them. -/
def leastLimit (first : Permit) (rest : List Permit) : Permit :=
  rest.foldl (fun b p => if comesFirst p.speed p.cause b.speed b.cause then p else b) first

/-- The limit that an obstacle at free distance d sets: 0 when the effective distance d' is not above 0, else
isqrt(2 × deceleration × d') (R63). -/
def stopSpeed (dec allow d : Int) : Int :=
  if d - allow ≤ 0 then 0 else (isqrt (2 * dec * (d - allow)).toNat : Int)

/-- A travel permit: the least of the obstacle's limit, the own Vmax and the ceilings (R63). -/
def travelPermit (vmax dec allow : Int) (obs : List Obstacle) (ceilings : List Permit) : Permit :=
  let own : Permit := { speed := vmax, cause := .vmax }
  match nearest obs with
  | none => leastLimit own ceilings
  | some o => leastLimit { speed := stopSpeed dec allow o.d, cause := o.cause } (own :: ceilings)

/-- The ceilings of the SLOW zones under the footprint (R64) and of OVERLOAD (R65), on all four travel permits. -/
def travelCeilings (s : State) (img : Image) : List Permit :=
  let slow := (img.zones.filter fun z => z.kind == .slow && (footprint img s.sample.x).overlaps z.xs).map
    fun z => ({ speed := z.ceiling, cause := .ceiling z.id } : Permit)
  let creeping := if s.wgu.loadClass = .overload then [({ speed := img.creep, cause := .overload } : Permit)] else []
  slow ++ creeping

/-- The creep ceilings of zones in ZONE_CONFLICT under the footprint, on the gantry permits (R64). -/
def conflictCeilings (s : State) (img : Image) : List Permit :=
  (img.zones.filter fun z => s.clu.conflicts.contains z.id && (footprint img s.sample.x).overlaps z.xs).map
    fun z => ({ speed := img.creep, cause := .conflict z.id } : Permit)

/-- The hoist-up permit: the first row of R66 that holds. -/
def hoistUpPermit (s : State) (img : Image) : Permit :=
  if img.zMax ≤ s.sample.z then { speed := 0, cause := .zLimit }
  else if s.wgu.loadClass = .overload then { speed := 0, cause := .overload }
  else { speed := img.hoistVmax.pick s.wgu.loadClass, cause := .vmax }

/-- The expected contact height while the active order lowers (R67). -/
def loweringContact (m : Moc) : Option Int :=
  match m.active with
  | none => none
  | some a => if a.phase = .pickLower ∨ a.phase = .placeLower then a.contact else none

/-- The hoist-down permit: the first row of R67 that holds. -/
def hoistDownPermit (s : State) (img : Image) : Permit :=
  if s.sample.z ≤ img.zMin then { speed := 0, cause := .zLimit }
  else
    match loweringContact s.moc with
    | some c =>
      if s.sample.z ≤ c + 500 then { speed := img.creep, cause := .contact }
      else { speed := img.hoistVmax.pick s.wgu.loadClass, cause := .vmax }
    | none => { speed := img.hoistVmax.pick s.wgu.loadClass, cause := .vmax }

/-- The six permits as computed in RUNNING with a sample that is not stale (R63 to R67). -/
def computedPermits (s : State) (img : Image) (o : Obstacles) : PermitSet :=
  let c := s.wgu.loadClass
  let gv := img.gantryVmax.pick c
  let gd := img.gantryDec.pick c
  let tv := img.trolleyVmax.pick c
  let td := img.trolleyDec.pick c
  let ceil := travelCeilings s img
  let gceil := conflictCeilings s img ++ ceil
  { gantryPlus := travelPermit gv gd (allowance img gv) o.gantryPlus gceil,
    gantryMinus := travelPermit gv gd (allowance img gv) o.gantryMinus gceil,
    trolleyPlus := travelPermit tv td (allowance img tv) o.trolleyPlus ceil,
    trolleyMinus := travelPermit tv td (allowance img tv) o.trolleyMinus ceil,
    hoistUp := hoistUpPermit s img, hoistDown := hoistDownPermit s img }

/-- Six permits of 0 with one cause (R68). -/
def zeroPermits (c : Cause) : PermitSet :=
  let p : Permit := { speed := 0, cause := c }
  ⟨p, p, p, p, p, p⟩

/-- The six permits: zeroed outside RUNNING with STATE, with a stale sample with STALE_SAMPLE, else computed (R68). -/
def permitsOf (s : State) (img : Image) (o : Obstacles) : PermitSet :=
  if s.rlc.nodeState ≠ .running then zeroPermits .state
  else if s.sampleStale then zeroPermits .staleSample
  else computedPermits s img o

/-- The free distance of a direction: that of its nearest obstacle (R47). Every direction has one (R63). -/
def freeOf (obs : List Obstacle) : Int :=
  match nearest obs with
  | none => 0
  | some o => o.d

/-- The free distances of an obstacle list (R47). -/
def freeSet (o : Obstacles) : FreeSet :=
  { gantryPlus := freeOf o.gantryPlus, gantryMinus := freeOf o.gantryMinus, trolleyPlus := freeOf o.trolleyPlus,
    trolleyMinus := freeOf o.trolleyMinus }

/-! ## Computation and emission (R52, R70 to R72) -/

/-- The peers counted at x_j = x0 (R52). -/
def clashing (s : State) : List Nat := (s.ptb.peers.filter fun p => p.x == s.sample.x).map (·.n)

/-- POSITION_CLASH for each peer counted at x_j = x0 that the previous computation did not count so (R52). -/
def State.reportClashes (s : State) : State :=
  (clashing s).foldl (fun t n => if s.epu.clash.contains n then t else t.emit (.positionClash n)) s

/-- The permit record emitted when a permit or cause differs from the last emitted, or 50 ms or more have passed since
(R72). -/
def State.emitRecord (s : State) : State :=
  if s.epu.lastEmitted = some s.epu.record.permits ∧ s.now < s.epu.lastEmitAt + 50 then s
  else
    State.emitPermit { s with epu.lastEmitted := some s.epu.record.permits, epu.lastEmitAt := s.now }

/-- The EPU's new values from one reading of the state (R71); without a validated image no obstacle is counted and the
free distances are absent (R47). -/
def computeEpu (s : State) : Epu :=
  match s.cpt.image with
  | none =>
    { s.epu with record := { permits := zeroPermits .state, free := none }, obstacles := ⟨[], [], [], []⟩,
                 clash := [], computedAt := s.now }
  | some img =>
    let o := obstaclesOf s img
    { s.epu with record := { permits := permitsOf s img o, free := some (freeSet o) }, obstacles := o,
                 clash := clashing s, computedAt := s.now }

/-- A computation of the permit record, and its emission (R70 to R72). In RESET none is made. -/
def State.compute (s : State) : State :=
  if s.rlc.nodeState = .reset then s
  else
    let t := if s.cpt.image.isNone then s else s.reportClashes
    State.emitRecord { t with epu := computeEpu s }

end Sys2Proof.Machine
end

