-- ==== Sys2Proof/Machine/Claims.lean ====
section
/-! DEFINITION. The CLU (chapter 4): ranking, asks, settles, yields, releases, double holds and the conflict set. -/

namespace Sys2Proof.Machine

/-! ## Reads (R79, R95) -/

/-- The own entry on a target. -/
def findClaim (s : State) (t : Target) : Option OwnClaim := s.clu.claims.find? fun c => c.target == t

/-- The state of the own claim on a target. -/
def claimState (s : State) (t : Target) : Option ClaimState := (findClaim s t).map (·.state)

/-- A peer's entry is taken as HELD: as its copy states, and always when the record is LOST (R79, R88). -/
def takenHeld (p : Peer) (e : CopyEntry) : Bool := p.liveness == .lost || e.held

/-- A peer's entries on a target. -/
def entriesOn (p : Peer) (t : Target) : List CopyEntry := p.claims.filter fun e => e.target == t

/-- A peer's entry ranks above an own claim taken as ASKING at a priority (R79). -/
def ranksAbove (own prio : Nat) (p : Peer) (e : CopyEntry) : Bool :=
  takenHeld p e || decide (prio < e.prio) || (e.prio == prio && decide (p.serial < own))

/-- Some peer claim on the target is better than an own claim taken as ASKING at this priority (R79). -/
def betterClaim (s : State) (t : Target) (prio : Nat) : Bool :=
  s.ptb.peers.any fun p => (entriesOn p t).any (ranksAbove s.serial prio p)

/-- The peers with a claim taken as HELD on a target (R84). -/
def holdingPeers (s : State) (t : Target) : List Peer :=
  s.ptb.peers.filter fun p => (entriesOn p t).any (takenHeld p)

/-- Some peer claim on the target, in any state and of any liveness (R116). -/
def claimedByPeer (s : State) (t : Target) : Bool := s.ptb.peers.any fun p => !(entriesOn p t).isEmpty

/-- The lowest crane number with a claim on the target (R114). -/
def lowestClaimant (s : State) (t : Target) : Option Nat :=
  (s.ptb.peers.find? fun p => !(entriesOn p t).isEmpty).map (·.n)

/-! ## Changes to the list -/

/-- The own claim list with the entry on a target changed. -/
def putClaim (s : State) (t : Target) (f : OwnClaim → OwnClaim) : State :=
  { s with clu.claims := s.clu.claims.map fun c => if c.target == t then f c else c }

/-- The bay of a TRUCK_BAY target of the own table. -/
def ownBay (s : State) (t : Target) : Option Nat := s.cpt.image.bind fun img => targetBay img t

/-- The change of an entry handed to its holders: to the TBU for a TRUCK_BAY entry (R94), and to the order (R95). -/
def handChange (s : State) (t : Target) (st : ClaimState) (left : Bool) (holders : List Holder) : State :=
  let s := match ownBay s t with
    | some bay => s.hand (.truckClaim bay)
    | none => s
  match s.moc.active with
  | none => s
  | some a => if holders.contains .order then s.hand (.orderClaim a.ord.id t st left) else s

/-- A change to the own claim list: handed to the EPU, reported, and handed to holders (R95). -/
def claimChanged (s : State) (t : Target) (st : ClaimState) (left : Bool) (holders : List Holder) : State :=
  handChange ((s.compute).emit (.claimState t (some st))) t st left holders

/-- A zone leaves the conflict set, with its report and a computation (R91). -/
def endConflict (s : State) (z : Nat) : State :=
  if s.clu.conflicts.contains z then
    State.compute (State.emit { s with clu.conflicts := s.clu.conflicts.filter fun k => k != z } (.zoneConflictClear z))
  else s

/-- A zone enters the conflict set, with its report and a computation (R91). -/
def startConflict (s : State) (z : Nat) : State :=
  if s.clu.conflicts.contains z then s
  else State.compute (State.emit { s with clu.conflicts := s.clu.conflicts ++ [z] } (.zoneConflict z))

/-- What goes with an entry leaving HELD: the release window of a bay (R86), the conflict of a zone (R91) and the
SLOT_DOUBLE_HOLD memory of a slot (R92). -/
def leaveHeld (s : State) (t : Target) : State :=
  let s := match ownBay s t with
    | some bay => s.openReleaseWindow bay
    | none => s
  match t with
  | .zone z => endConflict s z
  | .slot k => { s with clu.doubleHeld := s.clu.doubleHeld.filter fun d => d.1 != k }
  | .other _ _ => s

/-- An entry yields (R81, R90, R92): it enters WAITING, and a RELEASE is queued. -/
def yieldClaim (s : State) (c : OwnClaim) : State :=
  let s := putClaim s c.target fun c => { c with state := .waiting }
  let s := if c.state = .held then leaveHeld s c.target else s
  claimChanged (s.offer (.fixed (.release c.target))) c.target .waiting (c.state == .held) c.holders

/-- A WAITING entry is asked again (R83): it enters ASKING, a CLAIM is queued and its settle timer starts. -/
def reaskClaim (s : State) (c : OwnClaim) : State :=
  let s := putClaim s c.target fun c => { c with state := .asking, askedAt := s.now }
  claimChanged (s.offer (.fixed (.claim c.target c.prio))) c.target .asking false c.holders

/-! ## Double holds (R90 to R92) -/

/-- The active order lowers on a slot: PICK_LOWER on its source or PLACE_LOWER on its destination in use (R92). -/
def loweringOn (m : Moc) (slot : Nat) : Bool :=
  match m.active with
  | none => false
  | some a =>
    (a.phase == .pickLower && a.ord.source == .slot slot)
      || (a.phase == .placeLower && a.destUse == some (.slot slot))

/-- A peer's HELD claim outranks the own HELD claim: by priority, then by serial (R79, R92). -/
def outranksHeld (s : State) (t : Target) (prio : Nat) (p : Peer) : Bool :=
  (entriesOn p t).any fun e => decide (prio < e.prio) || (e.prio == prio && decide (p.serial < s.serial))

/-- The double hold of a zone decided by footprints (R90), with the conflict set (R91). -/
def settleZone (s : State) (img : Image) (c : OwnClaim) (z : Nat) : State :=
  match zoneAt img z with
  | none => s
  | some zn =>
    let peers := holdingPeers s c.target
    if peers = [] then endConflict s z
    else if !(footprint img s.sample.x).overlaps zn.xs then yieldClaim s c
    else if peers.any fun p => (peerFootprint img p).overlaps zn.xs then startConflict s z
    else endConflict s z

/-- The SLOT_DOUBLE_HOLD memory of a slot kept for the peers that still hold it (R92). -/
def keepDouble (s : State) (slot : Nat) (holding : List Nat) : State :=
  { s with clu.doubleHeld := s.clu.doubleHeld.filter fun d => d.1 != slot || holding.contains d.2 }

/-- The peers that newly hold a slot twice, remembered and reported once each (R92). -/
def tellDouble (s : State) (slot : Nat) (holding : List Nat) : State :=
  let fresh := holding.filter fun n => !s.clu.doubleHeld.contains (slot, n)
  fresh.foldl (fun t n => t.emit (.slotDoubleHold slot n))
    { s with clu.doubleHeld := s.clu.doubleHeld ++ fresh.map fun n => (slot, n) }

/-- The double hold of a slot decided by the order's phase, then by rank; reported once for each peer while it stands (R92).
With several peers holding, one that outranks the own entry makes it yield, and nothing is reported of the others (log
entry 50). -/
def settleSlot (s : State) (c : OwnClaim) (slot : Nat) : State :=
  let peers := holdingPeers s c.target
  let s := keepDouble s slot (peers.map (·.n))
  if loweringOn s.moc slot then s
  else if peers.any (outranksHeld s c.target c.prio) then yieldClaim s c
  else tellDouble s slot (peers.map (·.n))

/-- The test of a HELD entry for a double hold (R84). -/
def settleDouble (s : State) (c : OwnClaim) : State :=
  match s.cpt.image with
  | none => s
  | some img =>
    match c.target with
    | .zone z => settleZone s img c z
    | .slot k => settleSlot s c k
    | .other _ _ => s

/-- One own entry tested against the copies as they stand (R81, R83, R84). -/
def retestClaim (s : State) (t : Target) : State :=
  match findClaim s t with
  | none => s
  | some c =>
    match c.state with
    | .asking => if betterClaim s t c.prio then yieldClaim s c else s
    | .waiting => if betterClaim s t c.prio then s else reaskClaim s c
    | .held => settleDouble s c

/-- Every own entry tested after a change to the copies (R87). Outside RUNNING none is (R93). -/
def retestClaims (s : State) : State :=
  if s.rlc.nodeState = .running then (s.clu.claims.map (·.target)).foldl retestClaim s else s

/-- The double holds of zones decided again at an own position sample (R90). -/
def resettleZones (s : State) : State :=
  if s.rlc.nodeState = .running then
    (s.clu.claims.filter fun c => c.state == .held && (match c.target with
      | .zone _ => true
      | .slot _ => false
      | .other _ _ => false)).foldl (fun t c => match findClaim t c.target with
        | some d => if d.state = .held then settleDouble t d else t
        | none => t) s
  else s

/-- The double holds of slots decided again at a phase change of the active order (R92). -/
def resettleSlots (s : State) : State :=
  if s.rlc.nodeState = .running then
    (s.clu.claims.filter fun c => c.state == .held && (match c.target with
      | .zone _ => false
      | .slot _ => true
      | .other _ _ => false)).foldl (fun t c => match findClaim t c.target with
        | some d => if d.state = .held then settleDouble t d else t
        | none => t) s
  else s

/-- An ASKING entry whose settle ends enters HELD (R82), and is tested at once for a double hold (R84). -/
def settleClaim (s : State) (c : OwnClaim) : State :=
  let s := putClaim s c.target fun c => { c with state := .held }
  retestClaim (claimChanged s c.target .held false c.holders) c.target

/-! ## Asks and releases (R78, R80, R86) -/

/-- An entry added at the tail of the own claim list. -/
def addClaim (s : State) (c : OwnClaim) : State := { s with clu.claims := s.clu.claims ++ [c] }

/-- An entry as it is made: asked now, with one holder (R77, R80). -/
def OwnClaim.fresh (t : Target) (prio now : Nat) (h : Holder) (st : ClaimState) : OwnClaim :=
  { target := t, state := st, prio := prio, askedAt := now, holders := [h] }

/-- A new entry at the tail, WAITING where a better peer claim exists, else ASKING with a CLAIM queued (R80). -/
def newClaim (s : State) (t : Target) (prio : Nat) (h : Holder) : State × AskAnswer :=
  if betterClaim s t prio then
    (claimChanged (addClaim s (.fresh t prio s.now h .waiting)) t .waiting false [], .answered .waiting)
  else
    (claimChanged ((addClaim s (.fresh t prio s.now h .asking)).offer (.fixed (.claim t prio))) t .asking false [],
      .answered .asking)

/-- The priority of an entry raised by a new holder (R78): a HELD entry stays HELD, an ASKING entry is asked anew, a
WAITING entry is tested again. -/
def raisePrio (s : State) (c : OwnClaim) (prio : Nat) : State :=
  match c.state with
  | .held =>
    claimChanged (putClaim s c.target fun c => { c with prio := prio }) c.target .held false c.holders
  | .asking =>
    let s := putClaim s c.target fun c => { c with prio := prio, askedAt := s.now }
    claimChanged (s.offer (.fixed (.claim c.target prio))) c.target .asking false c.holders
  | .waiting =>
    retestClaim (claimChanged (putClaim s c.target fun c => { c with prio := prio }) c.target .waiting false c.holders)
      c.target

/-- The image makes the target one that may be asked for (R76, R78). -/
def askable (s : State) (t : Target) : Bool :=
  match s.cpt.image with
  | some img => targetOk img t
  | none => false

/-- An ask served by the first row of R78 that applies. -/
def ask (s : State) (t : Target) (prio : Nat) (h : Holder) : State × AskAnswer :=
  if s.rlc.nodeState ≠ .running then (s, .badState)
  else if !askable s t then (s, .badTarget)
  else
    match findClaim s t with
    | some c =>
      if c.holders.contains h then (s, .answered c.state)
      else
        let s := putClaim s t fun c => { c with holders := c.holders ++ [h] }
        let s := if c.prio < prio then raisePrio s c prio else s
        (s, .answered ((claimState s t).getD c.state))
    | none => if 6 ≤ s.clu.claims.length then (s, .listFull) else newClaim s t prio h

/-- The own claim list without its entry on a target. -/
def dropClaim (s : State) (t : Target) : State :=
  { s with clu.claims := s.clu.claims.filter fun c => c.target != t }

/-- An entry removed from the list (R86): in ASKING or HELD a RELEASE is queued; the removal is reported and handed
on. -/
def removeClaim (s : State) (c : OwnClaim) : State :=
  let s := dropClaim s c.target
  let s := if c.state = .waiting then s else s.offer (.fixed (.release c.target))
  let s := if c.state = .held then leaveHeld s c.target else s
  ((s.compute).emit (.claimState c.target none)).hand .claimRemoved

/-- A claim that its holder gave up and other holders keep: the order may ask again what its own number of claims barred
(R178). -/
def heldOn (s : State) (h : Holder) : State := if h = .order then s.hand .claimRemoved else s

/-- A holder releases a target (R86); outside RUNNING the entry stays in the list without that holder (R93). -/
def releaseClaim (s : State) (t : Target) (h : Holder) : State :=
  match findClaim s t with
  | none => s
  | some c =>
    if !c.holders.contains h then s
    else
      let rest := c.holders.filter fun k => k != h
      if s.rlc.nodeState = .running ∧ rest = [] then removeClaim s c
      else heldOn (putClaim s t fun c => { c with holders := rest }) h

/-- Every conflict ended with its report (R93). -/
def endConflicts (s : State) : State := s.clu.conflicts.foldl endConflict s

/-- On entry to PARKED every entry is removed, with a RELEASE for each one in ASKING or HELD (R21, R93). -/
def parkClaims (s : State) : State :=
  let s := endConflicts s
  s.clu.claims.foldl removeClaim s

end Sys2Proof.Machine
end

