-- ==== Sys2Proof/Machine/Operands.lean ====
section
/-! DEFINITION. Frames counted in CP_BAD (R199, R207), the taking of requests (R200 to R202) and the tests of their arguments
(R103, R173, R175, R187, R214). -/

namespace Sys2Proof.Machine

/-! ## Frames of the crane port (R199, R207) -/

/-- A crane port frame discarded and counted in CP_BAD (R199, R207). -/
def countBadFrame (s : State) : State := { s with cpt.cpBad := satAdd s.cpt.cpBad 1 }

/-! ## Taking a request -/

/-- The CPT takes a buffered frame outside RESET and while fewer than 8 responses wait (R200). -/
def mayTake (s : State) : Bool := s.rlc.nodeState != .reset && decide (waitingOut isResponse s.cpt.out < 8)

/-- The request at the head of the buffer, when it is of this kind and may be taken. -/
def headRequest (s : State) (k : ReqKind) : Option (ReqTag × Request) :=
  match s.cpt.reqBuf with
  | .request tag r :: _ => if reqKind r = k ∧ mayTake s then some (tag, r) else none
  | _ => none

/-- The oldest frame leaves the request buffer. -/
def dropRequest (s : State) : State := { s with cpt.reqBuf := s.cpt.reqBuf.drop 1 }

/-- A request answered: the response is queued at once, and remembered unless the request is a read (R201, R202). -/
def answer (s : State) (tag : ReqTag) (r : Request) (st : Status) (why : Reason) (c : RespContent) : State :=
  let resp : Response :=
    { seq := tag.seq, kind := .known (reqKind r), status := st, reason := why, content := c, repeated := false }
  let s := s.queueResponse resp
  if isRead (reqKind r) then s else { s with cpt.lastReq := some { kind := reqKind r, tag := tag, response := resp } }

/-- The stored response, when the request repeats the last one in kind, sequence and payload (R202). -/
def repeatOf (s : State) (tag : ReqTag) (r : Request) : Option Response :=
  if isRead (reqKind r) then none
  else
    match s.cpt.lastReq with
    | none => none
    | some a => if a.kind = reqKind r ∧ a.tag = tag then some a.response else none

/-- A request command: nothing where its request is not at the head of the buffer; a repeat is answered again with the
repeat mark, in any node state (log entry 61); outside its states it is answered BAD_STATE; else it is served (R200 to
R202). -/
def takeRequest (s : State) (k : ReqKind) (serve : State → ReqTag → Request → State) : State :=
  match headRequest s k with
  | none => s
  | some (tag, r) =>
    let s := dropRequest s
    match repeatOf s tag r with
    | some resp => s.queueResponse { resp with repeated := true }
    | none => if acceptedIn k s.rlc.nodeState then serve s tag r else answer s tag r .badState .none .none

/-! ## Arguments -/

/-- An optional value lies in a range where it is present. -/
def optIn (lo hi : Nat) (v : Option Nat) : Bool :=
  match v with
  | none => true
  | some n => decide (lo ≤ n ∧ n ≤ hi)

/-- A coil field kept where it lies in its range, else absent (R106, R111). -/
def keepIn (lo hi : Nat) (v : Option Nat) : Option Nat := if optIn lo hi v then v else none

/-- Every coil field that is present lies in its range of R101. -/
def coilInRange (img : Image) (c : Coil) : Bool :=
  optIn 1 4294967295 c.id && optIn 0 99990 c.weight && optIn 1 img.dmax.toNat c.diameter && optIn 1 5000 c.width

/-- A coil's fields with those out of their range of R101 taken as absent. -/
def keepCoil (img : Image) (c : Coil) : Coil :=
  { id := keepIn 1 4294967295 c.id, weight := keepIn 0 99990 c.weight,
    diameter := keepIn 1 img.dmax.toNat c.diameter, width := keepIn 1 5000 c.width }

/-- A destination names what exists: a slot, rows within the row count with a preference that is one, a bay with a zone
(R175, R187). -/
def destOk (img : Image) (d : Dest) : Bool :=
  match d with
  | .slot id => slotExists img id
  | .area r1 r2 tier => decide (1 ≤ r1 ∧ r1 ≤ r2 ∧ r2 ≤ img.rows.length) && tier.isSome
  | .bay b => (bayZone img b).isSome

/-- A source names what exists (R175). -/
def sourceOk (img : Image) (src : Source) : Bool :=
  match src with
  | .slot id => slotExists img id
  | .bay b p => (bayZone img b).isSome && decide (1 ≤ p ∧ p ≤ 6)

/-- The forms of source and destination that a kind allows (R173). -/
def formsOk (k : OrderKind) (src : Source) (d : Dest) : Bool :=
  match k, src, d with
  | .store, .bay _ _, .area _ _ _ => true
  | .relocate, .slot _, .slot _ => true
  | .relocate, .slot _, .area _ _ _ => true
  | .load, .slot _, .bay _ => true
  | .unload, .bay _ _, .area _ _ _ => true
  | _, _, _ => false

/-- An alternate destination is a slot or an area (R173). -/
def altOk (img : Image) (d : Option Dest) : Bool :=
  match d with
  | none => true
  | some (.bay _) => false
  | some d => destOk img d

/-- An order's destination is the slot it takes the coil from (R175). -/
def sameSlot (o : Order) : Bool :=
  match o.source, o.dest with
  | .slot a, .slot b => a == b
  | _, _ => false

/-- The tests of R175 that are answered BAD_ARG. -/
def orderOk (img : Image) (o : Order) : Bool :=
  decide (1 ≤ o.id ∧ o.id ≤ 65535 ∧ o.prio ≤ 7 ∧ 1 ≤ o.coil ∧ o.coil ≤ 4294967295)
    && optIn 1 99990 o.weight && optIn 1 img.dmax.toNat o.diameter && optIn 1 5000 o.width
    && (match o.kind with
      | none => false
      | some k => formsOk k o.source o.dest)
    && sourceOk img o.source && destOk img o.dest && altOk img o.alt && !sameSlot o

/-- The first entry of a CONFIGURE that names no known parameter or an index outside its range (R214), numbered
from 1. -/
def firstUnknown (es : List ConfigEntry) : Option Nat :=
  (es.findIdx? fun e => match e.param with
    | none => true
    | some p => !indexOk p).map (· + 1)

/-- The first entry of a CONFIGURE that names a parameter and index named before it (R214), numbered from 1. -/
def firstTwice (es : List ConfigEntry) : Option Nat :=
  (upTo es.length).find? fun k => match es[k - 1]? with
    | none => false
    | some e => (es.take (k - 1)).any fun d => d.param == e.param

/-- What a CONFIGURE answers: the entry at fault, or none when every entry is applied (R214). -/
def configFail (es : List ConfigEntry) : Option Reason :=
  if es = [] ∨ 64 < es.length then some .argument
  else
    match firstUnknown es with
    | some k => some (.entry k)
    | none => (firstTwice es).map .entry

/-- The values of a CONFIGURE applied to the image under construction (R214). -/
def applyEntries (d : Draft) (es : List ConfigEntry) : Draft :=
  es.foldl (fun d e => match e.param with
    | none => d
    | some p => draftPut d p e.value) d

end Sys2Proof.Machine
end

