-- ==== Sys2Proof/Machine/Store.lean ====
section
/-! DEFINITION. The SMU (chapter 5) and the notice tracking it holds (section 2.7): changes to slot records and what they
hand on, peer notices, the pick test, the candidate test and the choice of a destination. -/

namespace Sys2Proof.Machine

/-! ## Changes (R102) -/

/-- The upper slots over an existing lower slot that are OCCUPIED or UNKNOWN (R114, R119). -/
def stackOver (img : Image) (m : Smu) (id : Nat) : List Nat :=
  let q := slotPos id
  if q.upper || !slotExists img id then []
  else (uppersOver img q.row q.p).filter fun u => match slotRec m u with
    | none => false
    | some r => r.content != .empty

/-- The active order has the slot as its source or as its destination in use (R102). -/
def usesSlot (m : Moc) (id : Nat) : Bool :=
  match m.active with
  | none => false
  | some a => a.ord.source == .slot id || a.destUse == some (.slot id)

/-- A column top of the slot's row differs between two maps (R113). -/
def topsDiffer (img : Image) (a b : Smu) (id : Nat) : Bool :=
  columnTops img a (slotPos id).row != columnTops img b (slotPos id).row

/-- The slot source of an active order that lowers on it, or lifts before lift-off: a stack shown standing on it stops the
order (R114, R192). -/
def liftSource (m : Moc) : Option Nat :=
  match m.active with
  | none => none
  | some a =>
    if a.phase = .pickLower ∨ a.phase = .lift ∧ a.lifted = false then
      (match a.ord.source with
        | .slot id => some id
        | .bay _ _ => none)
    else none

/-- The source slot that a change of the map makes BURIED (R114). -/
def newlyBuried (m : Moc) (img : Image) (before after : Smu) : Option Nat :=
  (liftSource m).bind fun k =>
    if stackOver img before k = [] ∧ stackOver img after k ≠ [] then some k else none

/-- Steps 1 to 3 of R102 on one changed record: tops, report, hand-on to the MOC, also of a source that the change of
another slot makes BURIED (R114). -/
def changeSlot (s : State) (img : Image) (id : Nat) (r : SlotRec) (src : ChangeReport) : State :=
  let t := { s with smu := putSlot s.smu id r }
  let t := if topsDiffer img s.smu t.smu id then t.compute else t
  let t := t.emit (.slotChanged id src)
  let t := if usesSlot t.moc id then t.hand (.slotChanged id) else t
  match newlyBuried t.moc img s.smu t.smu with
  | none => t
  | some k => t.hand (.slotChanged k)

/-- A change of the own crane: steps 1 to 3, then the NOTICE of step 4 (R102, R12). -/
def changeOwn (s : State) (img : Image) (id : Nat) (r : SlotRec) (src : ChangeReport) (k : NoticeKind) (c : Coil) :
    State :=
  (changeSlot s img id r src).issueNotice id k c

/-- A change made by a request: one that leaves the record as it was takes none of the steps (R102). -/
def changeByRequest (s : State) (img : Image) (id : Nat) (r : SlotRec) (src : ChangeReport) : State :=
  if slotRec s.smu id = some r then s else changeSlot s img id r src

/-! ## Commits and findings (R105 to R107) -/

/-- The own pick commit (R105). -/
def pickCommit (s : State) (img : Image) (id : Nat) (c : Coil) : State :=
  match slotRec s.smu id with
  | none => s
  | some r =>
    changeOwn s img id { r with content := .empty, coil := {}, disputed := false, source := some .own } (.source .own)
      .pick c

/-- A result's weight counts when its status is STABLE or UNSTABLE (R106, R186, R190). -/
def resultWeight (r : Option WeighResult) : Option Nat :=
  match r with
  | none => none
  | some w =>
    match w.status with
    | .stable => w.weight
    | .unstable => w.weight
    | .noResult => none
    | .overRange => none
    | .underZero => none

/-- The weight of a coil: the result's, else the declared one of the coil record (R106, R186, R190; log entry 23). -/
def coilWeight (r : Option WeighResult) (c : Coil) : Option Nat := (resultWeight r).orElse fun _ => c.weight

/-- The own place commit (R106). -/
def placeCommit (s : State) (img : Image) (id : Nat) (c : Coil) (res : Option WeighResult) : State :=
  match slotRec s.smu id with
  | none => s
  | some r =>
    let kept := keepCoil img { c with weight := coilWeight res c }
    changeOwn s img id { r with content := .occupied, coil := kept, disputed := false, source := some .own }
      (.source .own) .place kept

/-- A landing finding: EARLY_CONTACT makes the slot OCCUPIED, SOURCE_EMPTY makes it EMPTY (R107). -/
def landingFinding (s : State) (img : Image) (id : Nat) (occupied : Bool) : State :=
  match slotRec s.smu id with
  | none => s
  | some r =>
    changeOwn s img id
      { r with content := if occupied then .occupied else .empty, coil := {}, disputed := false,
               source := some .landing }
      (.source .landing) (if occupied then .foundOccupied else .foundEmpty) {}

/-! ## Notice tracking (R42 to R44) -/

/-- The distance ahead from a last applied sequence to a sequence (R42). -/
def aheadBy (last seq : Nat) : Nat :=
  if last = 0 then seq else if last ≤ seq then seq - last else seq + 65535 - last

/-- A sequence is behind a last applied sequence (R42). -/
def isBehind (last seq : Nat) : Bool :=
  if seq = 0 then decide (last ≠ 0) else decide (32768 ≤ aheadBy last seq)

/-- The sequence 3 before s (R44). -/
def threeBefore (seq : Nat) : Nat := if 4 ≤ seq then seq - 3 else seq + 65535 - 3

/-- The tracking entry of a number. -/
def trackAt (m : Smu) (n : Nat) : Option Track := m.tracking.find? fun t => t.n == n

/-- The tracking entry that follows this serial: the one held, or a new one with the last sequence absent (R43). -/
def trackFor (m : Smu) (n serial : Nat) : Track :=
  match trackAt m n with
  | none => { n := n, serial := serial, last := none }
  | some t => if t.serial = serial then t else { n := n, serial := serial, last := none }

/-- A tracking entry set. -/
def putTrack (s : State) (t : Track) : State :=
  { s with smu.tracking := (s.smu.tracking.filter fun u => u.n != t.n) ++ [t] }

/-- The check of a BEACON's notice sequence (R44). -/
def checkBeaconSeq (s : State) (n serial seq : Nat) : State :=
  if s.rlc.nodeState = .config then s
  else
    let t := trackFor s.smu n serial
    let last := t.last.getD 0
    if isBehind last seq then
      let s := s.emit (.mapResync n seq)
      if seq ≤ 3 then putTrack s { t with last := none }
      else (putTrack s { t with last := some (threeBefore seq) }).emit (.mapGap n 0 seq)
    else if aheadBy last seq ≤ 3 then putTrack s t
    else (putTrack s { t with last := some (threeBefore seq) }).emit (.mapGap n last seq)

/-! ## Peer notices (R109 to R111) -/

/-- A PICK or PLACE disagrees with the own record (R110). -/
def disagrees (r : SlotRec) (k : NoticeKind) (c : Coil) : Bool :=
  match k, r.content with
  | .pick, .empty => true
  | .pick, .occupied =>
    (match r.coil.id, c.id with
      | some a, some b => a != b
      | _, _ => false)
  | .place, .occupied => true
  | _, _ => false

/-- The record after a peer's notice (R109, R110). -/
def noticed (r : SlotRec) (n : Nat) (k : NoticeKind) (c : Coil) : SlotRec :=
  match k with
  | .pick =>
    { r with content := .empty, coil := {}, disputed := r.disputed || disagrees r k c, source := some (.peer n) }
  | .place =>
    { r with content := .occupied, coil := c, disputed := r.disputed || disagrees r k c, source := some (.peer n) }
  | .foundEmpty => { r with content := .empty, coil := {}, disputed := false, source := some (.peer n) }
  | .foundOccupied => { r with content := .occupied, coil := {}, disputed := false, source := some (.peer n) }
  | .setBlock => { r with blocked := true }
  | .clearBlock => { r with blocked := false }

/-- A notice changes the blocked flag alone. -/
def isBlockKind (k : NoticeKind) : Bool :=
  match k with
  | .setBlock => true
  | .clearBlock => true
  | _ => false

/-- A peer's notice applied to the map (R109 to R111); fields out of range are reported once a notice (log entry 53). -/
def applyNotice (s : State) (n : Nat) (k : Notice) : State :=
  match s.cpt.image with
  | none => s.emit (.noticeNoSlot n k.slot)
  | some img =>
    match slotRec s.smu k.slot with
    | none => s.emit (.noticeNoSlot n k.slot)
    | some r =>
      let c := keepCoil img k.coil
      let s := if c = k.coil then s else s.emit (.noticeFieldBad n k.slot)
      let s := if disagrees r k.kind c then s.emit (.slotDisputed k.slot n) else s
      changeSlot s img k.slot (noticed r n k.kind c) (if isBlockKind k.kind then .block else .source (.peer n))

/-- A peer's NOTICE taken by the SMU: tracked, and applied when its sequence is ahead (R43). -/
def takeNotice (s : State) (n serial : Nat) (k : Notice) : State :=
  let t := trackFor s.smu n serial
  let last := t.last.getD 0
  if k.seq = 0 ∨ k.seq = last ∨ isBehind last k.seq then putTrack s t
  else
    let s := putTrack s { t with last := some k.seq }
    let s := if aheadBy last k.seq = 1 then s else s.emit (.mapGap n last k.seq)
    applyNotice s n k

/-! ## Pick test (R114) -/

/-- The pick test on a slot (R114). -/
def pickTest (s : State) (img : Image) (id : Nat) : PickAnswer :=
  if !slotExists img id then .noSlot
  else
    match slotRec s.smu id with
    | none => .noSlot
    | some r =>
      if r.content ≠ .occupied then .notOccupied r.content
      else if r.blocked then .blocked
      else
        match lowestClaimant s (.slot id) with
        | some n => .claimed n
        | none =>
          match stackOver img s.smu id with
          | [] => .eligible
          | ids => .buried ids

/-! ## Candidate test and choice (R115 to R123) -/

/-- What a choice is asked with (R115): the coil's diameter, width and weight, and the excluded list. -/
structure Wanted where
  diameter : Option Nat
  width : Option Nat
  weight : Option Nat
  excluded : List Nat
deriving DecidableEq, Repr

/-- The low end of the reachable window (R117). -/
def reachLow (s : State) (img : Image) : Int :=
  (minusPeers s).foldl (fun v p => max v ((envelope img s.now p).hi + img.gapPeer + img.left)) 0

/-- The high end of the reachable window (R117). -/
def reachHigh (s : State) (img : Image) : Int :=
  (plusPeers s).foldl (fun v p => min v ((envelope img s.now p).lo - img.gapPeer - img.right)) img.runway

/-- A place lies in a claimable zone that a peer's claim holds (R118). -/
def inPeerZone (s : State) (img : Image) (x : Int) : Bool :=
  img.zones.any fun z =>
    z.kind.claimable && decide (z.x0 ≤ x ∧ x ≤ z.x1) && decide (holdingPeers s (.zone z.id) ≠ [])

/-- A place lies in a NO_LOAD zone (R118). -/
def inNoLoad (img : Image) (p : Place) : Bool :=
  img.zones.any fun z =>
    z.kind == .noLoad && decide (z.x0 ≤ p.x ∧ p.x ≤ z.x1) && decide (z.y0 ≤ p.y ∧ p.y ≤ z.y1)

/-- An own claim on the slot that the active order does not hold (R116). -/
def ownClaimBars (s : State) (id : Nat) : Bool :=
  match findClaim s (.slot id) with
  | none => false
  | some c => !c.holders.contains .order

/-- The diameter of the coil, Dmax where absent (R115). -/
def wantedDiameter (img : Image) (w : Wanted) : Int :=
  match w.diameter with
  | some d => (d : Int)
  | none => img.dmax

/-- The tier part of the candidate test for a lower slot (R119). -/
def lowerFail (s : State) (img : Image) (w : Wanted) (id : Nat) : Option CandidateFail :=
  if img.saddleMax < wantedDiameter img w then some .diameter
  else if stackOver img s.smu id ≠ [] then some .buriedBelow
  else none

/-- The tier part of the candidate test for an upper slot on its two supports (R120). -/
def upperFail (s : State) (img : Image) (w : Wanted) (id : Nat) : Option CandidateFail :=
  let q := slotPos id
  match slotRec s.smu (slotId q.row false q.p), slotRec s.smu (slotId q.row false (q.p + 1)) with
  | some a, some b =>
    match a.coil.diameter, b.coil.diameter, a.coil.weight, b.coil.weight with
    | some d1, some d2, some m1, some m2 =>
      if a.content ≠ .occupied ∨ b.content ≠ .occupied then some .support
      else if a.disputed || a.blocked || b.disputed || b.blocked then some .support
      else if img.tierTolerance < mag ((d1 : Int) - (d2 : Int)) then some .tolerance
      else if min (d1 : Int) (d2 : Int) + img.upperOversize < wantedDiameter img w then some .tolerance
      else
        match a.coil.width, b.coil.width, w.width with
        | some w1, some w2, some wc =>
          if min (w1 : Int) (w2 : Int) + img.widthTolerance < (wc : Int) then some .width
          else
            match w.weight with
            | none => some .weight
            | some m => if min (m1 : Int) (m2 : Int) * img.upperRatio < (m : Int) * 100 then some .weight else none
        | _, _, _ => some .width
    | _, _, _, _ => some .support
  | _, _ => some .support

/-- The candidate test: the first failing test in the order of R122, or none. -/
def candidateFail (s : State) (img : Image) (w : Wanted) (id : Nat) : Option CandidateFail :=
  match slotPlace img id, slotRec s.smu id with
  | some p, some r =>
    if r.content ≠ .empty then some .notEmpty
    else if r.blocked then some .blocked
    else if r.disputed then some .disputed
    else if w.excluded.contains id then some .excluded
    else if claimedByPeer s (.slot id) then some .peerClaim
    else if ownClaimBars s id then some .ownClaim
    else if p.x < reachLow s img ∨ reachHigh s img < p.x then some .outOfReach
    else if inPeerZone s img p.x then some .zoneHeld
    else if inNoLoad img p then some .noLoad
    else if (slotPos id).upper then upperFail s img w id
    else lowerFail s img w id
  | _, _ => some .absent

/-- A slot passes an area's candidate test under its tier preference (R119, R120). -/
def passes (s : State) (img : Image) (w : Wanted) (tier : Tier) (id : Nat) : Bool :=
  (candidateFail s img w id).isNone && (tier == .any || !(slotPos id).upper)

/-- The cost of a slot (R121). -/
def slotCost (s : State) (img : Image) (id : Nat) : Int :=
  match slotPlace img id with
  | none => 0
  | some p => floorDiv (mag (p.x - s.sample.x)) 100 + (if (slotPos id).upper then img.upperPenalty else 0)

/-- The slots of rows r1 to r2, by rising id. -/
def areaSlots (img : Image) (r1 r2 : Nat) : List Nat :=
  ((upTo img.rows.length).filter fun r => decide (r1 ≤ r ∧ r ≤ r2)).flatMap (rowSlots img)

/-- The slot of lowest cost among candidates given by rising id; among equal costs the first (R121). -/
def cheapest (cost : Nat → Int) : List Nat → Option Nat
  | [] => none
  | id :: rest =>
    match cheapest cost rest with
    | none => some id
    | some k => if cost k < cost id then some k else some id

/-- The area choice (R121): the chosen slot, or none. -/
def areaChoice (s : State) (img : Image) (w : Wanted) (r1 r2 : Nat) (tier : Tier) : Option Nat :=
  cheapest (slotCost s img) ((areaSlots img r1 r2).filter (passes s img w tier))

/-! ## Place under the hook (R221) -/

/-- The first lower, then the first upper slot of a row whose band contains x, within a column half-width of y (R221);
among several the one of lowest id (log entry 26). -/
def slotUnder (img : Image) (x y : Int) : Option Nat :=
  let near (upper : Bool) : Option Nat := (upTo img.rows.length).findSome? fun r =>
    match rowAt img r with
    | none => none
    | some row =>
      if mag (x - row.centre) ≤ row.half then
        ((upTo (tierCount row upper)).find? fun p => decide (mag (y - posY row upper p) ≤ img.columnHalf)).map
          (slotId r upper)
      else none
  (near false).orElse fun _ => near true

end Sys2Proof.Machine
end

