-- ==== Sys2Proof/Machine/Peers.lean ====
section
/-! DEFINITION. The PTB (chapter 2): records, claims copies, truck versions, silence supervision, and what each change
hands on. -/

namespace Sys2Proof.Machine

/-! ## Records -/

/-- A record put into a table held by rising crane number, in place of one of the same number (R29). -/
def insertPeer (p : Peer) : List Peer → List Peer
  | [] => [p]
  | q :: qs => if p.n < q.n then p :: q :: qs else if p.n = q.n then p :: qs else q :: insertPeer p qs

/-- A record put into the table. -/
def putPeer (s : State) (p : Peer) : State := { s with ptb.peers := insertPeer p s.ptb.peers }

/-- A record as it is created, before the creating frame's fields are set (R31): LIVE, heard now. -/
def Peer.fresh (n serial now : Nat) : Peer :=
  { n := n, serial := serial, nodeState := none, pattern := none, valid := false, x := 0, vx := 0, age := 65535,
    arrival := now, loadClass := none, noticeSeq := none, profile := none, liveness := .live, heard := now,
    cleared := false, claims := [], versions := PerBay.all 0, outOfField := false }

/-- The record of a known peer: the number has a record and its serial is this one (R30). -/
def knownPeer (s : State) (n serial : Nat) : Option Peer :=
  match peerAt s.ptb n with
  | none => none
  | some p => if p.serial = serial then some p else none

/-- A record whose peer has been heard: silence timer at 0, LIVE, and the cleared mark cleared on leaving LOST (R38,
R39). -/
def Peer.revived (p : Peer) (now : Nat) : Peer :=
  { p with heard := now, liveness := .live, cleared := p.cleared && p.liveness != .lost }

/-- The STALE limit of a record by the node state it holds (R38). -/
def staleLimit (p : Peer) : Nat :=
  match p.nodeState with
  | some .parked => 3500
  | some .fault => 3500
  | some .joining => 350
  | some .running => 350
  | none => 350

/-- The LOST limit of a record by the node state it holds (R38). -/
def lostLimit (p : Peer) : Nat :=
  match p.nodeState with
  | some .parked => 10000
  | some .fault => 10000
  | some .joining => 1000
  | some .running => 1000
  | none => 1000

/-- A version offered to a bay: a greater one replaces the value (R41). -/
def Peer.offered (p : Peer) (bay version : Nat) : Peer :=
  if 1 ≤ bay ∧ bay ≤ 4 then { p with versions := p.versions.set bay (max (p.versions.get bay) version) } else p

/-- A position taken into a record with the clamps of R37; the arrival time becomes now, and the out-of-field mark says
whether a clamp changed a value. -/
def Peer.placed (p : Peer) (img : Option Image) (now : Nat) (x vx : Int) (age : Nat) (valid : Bool) : Peer :=
  let cx := match img with
    | none => x
    | some g => clamp 0 g.runway x
  let cv := clamp (-4000) 4000 vx
  { p with x := cx, vx := cv, age := age, valid := valid, arrival := now, outOfField := decide (cx ≠ x ∨ cv ≠ vx) }

/-- The report of a clamp: made when the mark comes to be set (R37). -/
def reportField (s : State) (before after : Peer) : State :=
  if after.outOfField = true ∧ before.outOfField = false then s.emit (.peerOutOfField after.n) else s

/-- The report of a peer heard again (R38). -/
def reportBack (s : State) (before : Peer) : State :=
  if before.liveness = .live then s else s.emit (.peerBack before.n)

/-- The versions that a BEACON's claim entries offer through the own zone table (R34, R94). -/
def offerEntries (p : Peer) (img : Option Image) (es : List ClaimEntry) : Peer :=
  match img with
  | none => p
  | some g => es.foldl (fun p e => match e.version, targetBay g e.target with
    | some v, some bay => p.offered bay v
    | _, _ => p) p

/-- The claims copy that a BEACON states, stamped with the time of receipt (R34). -/
def copyOf (now : Nat) (es : List ClaimEntry) : List CopyEntry :=
  es.map fun e => { target := e.target, held := e.held, prio := e.prio, stated := now }

/-! ## Hand-ons (R45, R81, R87) -/

/-- An order that waits in CLAIM_SOURCE on a peer's claim tests again (R183; log entry 15). -/
def sourceAgain (s : State) : State :=
  match s.moc.active with
  | none => s
  | some a => if a.phase = .claimSource then s.hand .progress else s

/-- A whole claims copy or a liveness changed: handed to the CLU, which tests every own entry (R87). -/
def copiesChanged (s : State) : State := sourceAgain (retestClaims s)

/-- One entry of a claims copy changed: the own entry on its target is tested (R87). -/
def entryChanged (s : State) (t : Target) : State :=
  sourceAgain (if s.rlc.nodeState = .running then retestClaim s t else s)

/-- A record changed: handed to the EPU, then to the CLU (R45, R70; log entry 9). -/
def recordChanged (s : State) : State := copiesChanged s.compute

/-! ## Creation and replacement (R29, R31, R33) -/

/-- PEER_TABLE_FULL, reported once (R29). -/
def tellFull (s : State) : State :=
  if s.ptb.fullTold then s else State.emit { s with ptb.fullTold := true } .peerTableFull

/-- The record that a JOIN, BEACON or PROFILE of another serial or of a new number starts from, with its report: the
table's refusal (R29), a replacement that passes the truck versions on (R33), or a new record (R31). -/
def startRecord (s : State) (n serial : Nat) : State × Option Peer :=
  match peerAt s.ptb n with
  | some p => (s.emit (.peerReplaced n serial), some { Peer.fresh n serial s.now with versions := p.versions })
  | none =>
    if 7 ≤ s.ptb.peers.length then (tellFull s, none)
    else (s.emit (.peerNew n serial), some (Peer.fresh n serial s.now))

/-! ## Frames -/

/-- A JOIN from a known peer (R32): a repeat, or a restart that resets the record. -/
def joinKnown (s : State) (p : Peer) (pattern : Nat) (x : Int) : State :=
  let img := s.cpt.image
  if p.pattern = some pattern then
    let q := { (p.revived s.now).placed img s.now x 0 0 true with nodeState := some .joining }
    recordChanged (putPeer (reportField (reportBack s p) p q) q)
  else
    let base := { p.revived s.now with
      profile := none, loadClass := none, noticeSeq := none, claims := [], cleared := false, outOfField := false,
      nodeState := some .joining, pattern := some pattern }
    let q := base.placed img s.now x 0 0 true
    recordChanged (putPeer (reportField (reportBack (s.emit (.peerRestarted p.n)) p) base q) q)

/-- A JOIN taken by the PTB (R31 to R33). -/
def takeJoin (s : State) (n serial pattern : Nat) (x : Int) : State :=
  match knownPeer s n serial with
  | some p => joinKnown s p pattern x
  | none =>
    match startRecord s n serial with
    | (s, none) => s
    | (s, some p) =>
      let q := { p.placed s.cpt.image s.now x 0 0 true with nodeState := some .joining, pattern := some pattern }
      recordChanged (putPeer (reportField s p q) q)

/-- A BEACON's fields set in a record (R31, R34). -/
def Peer.stated (p : Peer) (img : Option Image) (now : Nat) (b : Beacon) : Peer :=
  let q := p.placed img now b.x b.vx b.age b.valid
  offerEntries
    { q with nodeState := some b.state, loadClass := some b.loadClass, noticeSeq := some b.noticeSeq,
             claims := copyOf now b.claims } img b.claims

/-- A BEACON taken by the PTB (R31, R33, R34) and then checked by the notice tracking (R44, R45). -/
def takeBeacon (s : State) (n serial : Nat) (b : Beacon) : State :=
  match knownPeer s n serial with
  | some p =>
    let q := (p.revived s.now).stated s.cpt.image s.now b
    recordChanged (checkBeaconSeq (putPeer (reportField (reportBack s p) p q) q) n serial b.noticeSeq)
  | none =>
    match startRecord s n serial with
    | (s, none) => checkBeaconSeq s n serial b.noticeSeq
    | (s, some p) =>
      let q := p.stated s.cpt.image s.now b
      recordChanged (checkBeaconSeq (putPeer (reportField s p q) q) n serial b.noticeSeq)

/-- A profile may be taken: in range, or not yet judged while no image is validated (R35). -/
def profileOk (img : Option Image) (p : Profile) : Bool := img.isNone || profileInRange p

/-- A PROFILE taken by the PTB (R31, R33, R35). Its record is handed to the EPU when the profile changes, and to the CLU
when the record is new or comes back from silence. -/
def takeProfile (s : State) (n serial : Nat) (f : Profile) : State :=
  let ok := profileOk s.cpt.image f
  let report (t : State) : State := if ok then t else t.emit (.peerProfileBad n)
  match knownPeer s n serial with
  | some p =>
    let q := { p.revived s.now with profile := if ok then some f else p.profile }
    let t := putPeer (report (reportBack s p)) q
    if p.liveness ≠ .live then recordChanged t else if q.profile ≠ p.profile then t.compute else t
  | none =>
    match startRecord s n serial with
    | (s, none) => s
    | (s, some p) => recordChanged (putPeer (report s) { p with profile := if ok then some f else none })

/-- A frame that restarts the silence timer of a known peer and sets nothing else in its record (R38). -/
def hearKnown (s : State) (n serial : Nat) : State :=
  match knownPeer s n serial with
  | none => s
  | some p =>
    let t := putPeer (reportBack s p) (p.revived s.now)
    if p.liveness = .live then t else recordChanged t

/-- A CLAIM's entry in a claims copy (R40); none where the copy is full. -/
def addEntry (cs : List CopyEntry) (t : Target) (prio now : Nat) : Option (List CopyEntry) :=
  if cs.any fun e => e.target == t then
    some (cs.map fun e => if e.target == t then { e with held := false, prio := prio, stated := now } else e)
  else if cs.length < 6 then some (cs ++ [{ target := t, held := false, prio := prio, stated := now }])
  else none

/-- What a CLAIM or RELEASE for a target hands on (R40, R45, R87): the entry, or from a peer that comes back from
silence its record. -/
def copyFrame (s : State) (t : Target) (before after : Peer) : State :=
  let u := putPeer s after
  if before.liveness = .live then entryChanged u t else recordChanged u

/-- A CLAIM taken by the PTB (R40). -/
def takeClaim (s : State) (n serial : Nat) (t : Target) (prio : Nat) : State :=
  match knownPeer s n serial with
  | none => s
  | some p =>
    let q := p.revived s.now
    match addEntry q.claims t prio s.now with
    | some cs => copyFrame (reportBack s p) t p { q with claims := cs }
    | none => copyFrame ((reportBack s p).emit (.claimCopyFull n)) t p q

/-- A RELEASE taken by the PTB (R40). -/
def takeRelease (s : State) (n serial : Nat) (t : Target) : State :=
  match knownPeer s n serial with
  | none => s
  | some p =>
    let q := p.revived s.now
    copyFrame (reportBack s p) t p { q with claims := q.claims.filter fun e => e.target != t }

/-- The version of a TRUCK_STATE offered to its sender's record (R41). -/
def offerVersion (s : State) (n serial bay version : Nat) : State :=
  match knownPeer s n serial with
  | none => s
  | some p => putPeer s (p.offered bay version)

/-! ## Silence and clearing (R38, R39) -/

/-- The liveness of a record changed, reported and handed on (R38). -/
def changeLiveness (s : State) (p : Peer) (l : Liveness) (e : Event) : State :=
  recordChanged ((putPeer s { p with liveness := l }).emit e)

/-- A LOST peer's claims copy emptied and its cleared mark set; CLAIMS_CLEARED reported (R39, R89). -/
def forceClear (s : State) (p : Peer) : State :=
  copiesChanged ((putPeer s { p with claims := [], cleared := true }).emit (.claimsCleared p.n p.claims.length))

/-! ## The image taken (R35, R37) -/

/-- A record checked and clamped as the node enters JOINING from CONFIG (R35, R37). -/
def recheckPeer (s : State) (img : Image) (p : Peer) : State :=
  let bad := match p.profile with
    | none => false
    | some f => !profileInRange f
  let x := clamp 0 img.runway p.x
  let q := { p with profile := if bad then none else p.profile, x := x, outOfField := p.outOfField || decide (x ≠ p.x) }
  let s := if bad then s.emit (.peerProfileBad p.n) else s
  putPeer (reportField s p q) q

/-- Every record checked and clamped (R216). -/
def recheckPeers (s : State) (img : Image) : State := s.ptb.peers.foldl (fun t p => recheckPeer t img p) s

end Sys2Proof.Machine
end

