-- ==== Sys2Proof/Machine/Weigh.lean ====
section
/-! DEFINITION. The WGU and LCP (chapter 6): conversion, load class, sessions and results, weigh state, zero capture,
loss of the load cell; and the untracked-load mark that follows the load class (R220, R221). -/

namespace Sys2Proof.Machine

/-! ## Untracked load (R220, R221) -/

/-- The positions that a truck record carries, numbered from 1, with its deck height. -/
def truckPositions (c : TruckContent) : List (Nat × Position × Nat) :=
  match c with
  | .noTruck => []
  | .present _ d _ _ => (upTo d.positions.length).filterMap fun p => d.positions[p - 1]?.map fun q => (p, q, d.deckHeight)

/-- The bay position whose place lies within 50 mm of x and of y, by rising bay and position (R221; log entry 26). -/
def positionUnder (t : Tbu) (img : Image) (x y : Int) : Option (Nat × Nat) :=
  [1, 2, 3, 4].findSome? fun bay =>
    match bayZone img bay with
    | none => none
    | some zn =>
      ((truckPositions (t.trucks.get bay).content).find? fun q =>
        let place := trailerPlace zn q.2.2 q.2.1
        decide (mag (x - place.x) ≤ 50 ∧ mag (y - place.y) ≤ 50)).map fun q => (bay, q.1)

/-- The place where the load was set down (R221). -/
def setDownPlace (s : State) : SetDown :=
  match s.cpt.image with
  | none => .none
  | some img =>
    if s.sampleStale then .none
    else
      match slotUnder img s.sample.x s.sample.y with
      | some id => .slot id
      | none =>
        match positionUnder s.tbu img s.sample.x s.sample.y with
        | some (bay, p) => .position bay p
        | none => .none

/-- The untracked-load mark set and reported, where the load class is not EMPTY (R220). -/
def markUntracked (s : State) (c : UntrackedCause) : State :=
  if s.wgu.loadClass = .empty then s
  else State.emit { s with moc.untracked := some c } (.untrackedLoad c s.sample.x s.sample.y s.sample.z)

/-- The mark cleared at a change of the load class to EMPTY, and the place reported (R220, R221). -/
def clearUntracked (s : State) : State :=
  match s.moc.untracked with
  | none => s
  | some _ =>
    State.emit { s with moc.untracked := none }
      (.untrackedLoadClear s.sample.x s.sample.y s.sample.z (setDownPlace s))

/-! ## Conversion (R128 to R130) -/

/-- The static gross mass of a raw count (R128). -/
def grossOf (img : Image) (zero raw : Int) : Int := roundHalfAway ((raw - zero) * img.scaleSpan) 65536

/-- A load sample that arrives now is DYNAMIC (R129). -/
def isDynamic (s : State) : Bool := decide (1500 < mag s.sample.az) || s.sampleStale

/-- The net mass of a sample that is not DYNAMIC (R129, R130). -/
def netOf (img : Image) (zero az raw : Int) : Int :=
  roundHalfAway (grossOf img zero raw * 9807) (9807 + az) - img.tare

/-! ## Capture conditions (R144) -/

/-- The capture conditions. While a capture runs, its state before capture is the weigh state they read, so that the
mark stays set until one of the conditions fails (R146; log entry 37). -/
def captureConditions (s : State) : Bool :=
  s.cpt.image.isSome && s.rlc.nodeState != .reset && (s.wgu.base == .unzeroed || s.wgu.base == .ready)
    && !s.sampleStale && decide (mag s.sample.vz < 20) && s.sample.grip == .opened && s.wgu.loadClass == .empty

/-- A capture begun, and its entry to CAPTURING reported (R142, R144, R148). -/
def beginCapture (s : State) (k : CaptureKind) : State :=
  State.emit { s with wgu.capture := some { kind := k, startedAt := s.now, count := 0, sum := 0 } }
    (.weighState (.capturing k))

/-- A test of the capture conditions: an AUTO capture begins where they hold and the mark is clear; then the mark says
whether they held (R144). -/
def testCapture (s : State) : State :=
  let hold := captureConditions s
  let t := { s with wgu.mark := hold }
  if hold && !s.wgu.mark && s.wgu.capture.isNone then beginCapture t .auto else t

/-! ## Weigh state (R142) -/

/-- A change of the weigh state reported and tested against the capture conditions (R142). Its effect on the MOC is
read at DECIDE. -/
def weighChanged (s : State) : State := testCapture (s.emit (.weighState (weighView s.wgu)))

/-! ## Results and sessions (R134 to R140) -/

/-- The match flag of an ORDER result (R138). -/
def matchOf (img : Image) (declared : Option Nat) (st : WeighStatus) (w : Option Nat) : MatchFlag :=
  let judge : MatchFlag :=
    match declared, w with
    | some md, some v =>
      if max (img.toleranceKg * 1000) ((md : Int) * img.tolerancePm) < mag ((v : Int) - (md : Int)) * 1000 then
        .mismatch
      else .agrees
    | _, _ => .notChecked
  match declared, st with
  | none, _ => .notChecked
  | some _, .noResult => .notChecked
  | some _, .overRange => .mismatch
  | some _, .underZero => .mismatch
  | some _, .stable => judge
  | some _, .unstable => judge

/-- The declared weight a session's result is compared with: an ORDER session's, where one was given (R138). -/
def declaredOf (k : SessionKind) : Option Nat :=
  match k with
  | .order _ _ d => d
  | .span _ => none

/-- A result record (R139). -/
def resultOf (img : Image) (k : SessionKind) (st : WeighStatus) (w : Option Nat) : WeighResult :=
  { kind := k, status := st, weight := w, division := img.division, flag := matchOf img (declaredOf k) st w }

/-- The weight of a full window: division × round half up of (S / (16 × division)) (R136). -/
def windowWeight (img : Image) (win : List WindowEntry) : Int :=
  img.division * roundHalfUp ((win.map (·.net)).foldl (· + ·) 0) (16 * img.division)

/-- The classification of a full window; `settled` is STABLE, or UNSTABLE at the timeout (R136, R137). -/
def classify (img : Image) (win : List WindowEntry) (settled : WeighStatus) : WeighStatus × Nat :=
  let w := windowWeight img win
  if win.any (·.saturated) then (.overRange, 99999)
  else if 99990 < w then (.overRange, 99999)
  else if w < -2 * img.division then (.underZero, 0)
  else if w < 0 then (settled, 0)
  else (settled, w.toNat)

/-- The weigh state after a SPAN result (R149). -/
def spanSettles (img : Image) (mass : Nat) (r : WeighResult) : WeighBase :=
  match r.status, r.weight with
  | .stable, some w => if mag ((w : Int) - (mass : Int)) ≤ 2 * img.division then .ready else .locked .spanFail
  | _, _ => WeighBase.locked .spanFail

/-- The end of a session with a result: stored, an ORDER result handed to the MOC, a SPAN result settling the
verification unless the load cell is lost, and reported, in the order of R139 (R139, R140; R149 names the report first: log
entry 63). -/
def endSession (s : State) (img : Image) (ss : Session) (st : WeighStatus) (w : Option Nat) : State :=
  let r := resultOf img ss.kind st w
  let s := { s with wgu.session := none, wgu.last := some r }
  let s : State := match ss.kind with
    | .order _ _ _ => s.hand (.weighResult r ss.atLiftOff)
    | .span mass =>
      if s.wgu.base = WeighBase.locked .sensor then s
      else weighChanged { s with wgu.base := spanSettles img mass r }
  s.emit (.weighResult r)

/-- A session is an ORDER session. -/
def isOrder (ss : Session) : Bool :=
  match ss.kind with
  | .order _ _ _ => true
  | .span _ => false

/-- The open ORDER session ended with NO_RESULT (R140). -/
def endOrderSession (s : State) : State :=
  match s.wgu.session, s.cpt.image with
  | some ss, some img => if isOrder ss then endSession s img ss .noResult none else s
  | _, _ => s

/-- The open session, of any kind, ended with NO_RESULT (R140). -/
def endAnySession (s : State) : State :=
  match s.wgu.session, s.cpt.image with
  | some ss, some img => endSession s img ss .noResult none
  | _, _ => s

/-- The session closed by the MOC without a result (R140): that of this order, where one is open. -/
def closeSession (s : State) (id : Nat) : State :=
  match s.wgu.session with
  | none => s
  | some ss =>
    match ss.kind with
    | .order k _ _ => if k = id then { s with wgu.session := none } else s
    | .span _ => s

/-- An ORDER session that ends at once with NO_RESULT (R134). -/
def refuseSession (s : State) (img : Image) (ss : Session) : State :=
  let r := resultOf img ss.kind .noResult none
  State.emit (State.hand { s with wgu.last := some r } (.weighResult r ss.atLiftOff)) (.weighResult r)

/-- An ORDER session started by the weigh state: it counts, waits for the capture, or ends at once (R134). -/
def startOrderSession (s : State) (img : Image) (ss : Session) : State :=
  match s.wgu.base, s.wgu.capture with
  | .ready, _ => { s with wgu.session := some ss }
  | .unzeroed, some _ => { s with wgu.session := some { ss with counting := false } }
  | _, _ => refuseSession s img ss

/-- An ORDER session opened by the MOC (R134): an open ORDER session is replaced and ends with NO_RESULT; an open SPAN
session goes on, and the new one ends at once. -/
def openOrderSession (s : State) (img : Image) (k : SessionKind) (atLiftOff : Bool) : State :=
  let ss : Session := { kind := k, openedAt := s.now, window := [], counting := true, atLiftOff := atLiftOff }
  match s.wgu.session with
  | some old =>
    if isOrder old then startOrderSession (endSession s img old .noResult none) img ss else refuseSession s img ss
  | none => startOrderSession s img ss

/-! ## Load class (R131 to R133) -/

/-- A list with an item at its tail that keeps its last 16 (R131, R135). -/
def keep16 {α : Type} (xs : List α) (x : α) : List α :=
  let ys := xs ++ [x]
  if 16 < ys.length then ys.drop 1 else ys

/-- A sample is over (R131). -/
def isOver (img : Image) (zero raw net : Int) (saturated : Bool) : Bool :=
  if saturated then decide (zero < raw) else decide (img.ratedCapacity * 105 < net * 100)

/-- The load class after a sample that is not DYNAMIC, by the first row of R132 that applies. -/
def nextClass (img : Image) (c : LoadClass) (win : List Int) (over8 : Nat) : LoadClass :=
  let sum := win.foldl (· + ·) 0
  let full := decide (win.length = 16)
  match c with
  | .empty => if 8 ≤ over8 then .overload else if full && decide (16 * 1000 ≤ sum) then .loaded else .empty
  | .loaded => if 8 ≤ over8 then .overload else if full && decide (sum < 16 * 600) then .empty else .loaded
  | .overload => if full && decide (sum < 16 * img.ratedCapacity) then .loaded else .overload

/-- The capture abandoned: back to the state before it, with its reports; an ORDER session that waits for the capture
ends when that state is not READY (R145, R147). -/
def abandonCapture (s : State) (why : AbandonReason) : State :=
  match s.wgu.capture with
  | none => s
  | some c =>
    let s := weighChanged (State.emit { s with wgu.capture := none } (.captureAbandoned c.kind why))
    if s.wgu.base = .ready then s else endOrderSession s

/-- An AUTO capture is in progress. -/
def autoRuns (w : Wgu) : Bool :=
  match w.capture with
  | some k => k.kind == .auto
  | none => false

/-- A load class that has changed from `old`: reported, handed to the EPU, tested against the capture, the capture
conditions and the untracked-load mark (R133, R145, R220). -/
def classChanged (s : State) (old : LoadClass) : State :=
  let c := s.wgu.loadClass
  if c = old then s
  else
    let t := (s.emit (.loadClass c)).compute
    let t := if autoRuns s.wgu && c != .empty then abandonCapture t .loadClass else t
    let t := testCapture t
    if c = .empty then clearUntracked t else t

/-- A sample that is not DYNAMIC fed to the class window, the overload count and the class (R131, R132); a change of the
class is still to be handed on (R126). -/
def feedClass (s : State) (img : Image) (raw net : Int) (saturated : Bool) : State :=
  let win := keep16 s.wgu.window net
  let count := if isOver img s.wgu.zero raw net saturated then min 8 (s.wgu.overCount + 1) else 0
  let c := nextClass img s.wgu.loadClass win count
  let count := if c = .overload ∧ s.wgu.loadClass ≠ .overload then 0 else count
  { s with wgu.window := win, wgu.overCount := count, wgu.loadClass := c }

/-! ## The session window (R135, R136) -/

/-- A full window whose nets lie within two divisions (R136). -/
def isStable (img : Image) (win : List WindowEntry) : Bool :=
  match win with
  | [] => false
  | e :: es =>
    let lo := es.foldl (fun v f => min v f.net) e.net
    let hi := es.foldl (fun v f => max v f.net) e.net
    decide (win.length = 16 ∧ hi - lo ≤ 2 * img.division)

/-- A sample that is not DYNAMIC fed to the window of an open session that counts (R135). -/
def feedSession (s : State) (net : Int) (saturated : Bool) : State :=
  match s.wgu.session with
  | none => s
  | some ss =>
    if ss.counting then
      { s with wgu.session := some { ss with window := keep16 ss.window { net := net, saturated := saturated } } }
    else s

/-- The open session ended where its window is stable (R136). -/
def settleSession (s : State) (img : Image) : State :=
  match s.wgu.session with
  | none => s
  | some ss =>
    if ss.counting && isStable img ss.window then
      let (st, w) := classify img ss.window .stable
      endSession s img ss st (some w)
    else s

/-- A DYNAMIC sample empties the open session's window (R135). -/
def breakSession (s : State) : State :=
  match s.wgu.session with
  | none => s
  | some ss => { s with wgu.session := some { ss with window := [] } }

/-- The session at its timeout (R137). -/
def timeoutSession (s : State) (img : Image) (ss : Session) : State :=
  if ss.counting && decide (ss.window.length = 16) then
    let (st, w) := classify img ss.window .unstable
    endSession s img ss st (some w)
  else endSession s img ss .noResult none

/-! ## Capture (R145 to R148) -/

/-- A good load sample in a capture counts, unless it is SATURATED and abandons it (R145). -/
def feedCapture (s : State) (raw : Int) (saturated : Bool) : State :=
  match s.wgu.capture with
  | none => s
  | some c =>
    if saturated then s else { s with wgu.capture := some { c with count := c.count + 1, sum := c.sum + raw } }

/-- A new working zero: the class window, the overload count and the open session's window are emptied, and a session
that waited counts (R131, R135, R147). -/
def takeZero (s : State) (zero : Int) : State :=
  { s with wgu.zero := zero, wgu.window := [], wgu.overCount := 0,
           wgu.session := s.wgu.session.map fun ss => { ss with window := [], counting := true } }

/-- The average of a capture (R146); with no sample counted the spec states none: a free value within the count's
24 bits (log entry 6). -/
def captureAverage (s : State) (c : Capture) : Int :=
  if c.count = 0 then (Config.emptyAverage s.draws + 8388608) % 16777216 - 8388608 else roundHalfAway c.sum c.count

/-- The free value of an empty capture taken. -/
def drewAverage (s : State) (c : Capture) : State := if c.count = 0 then s.drew else s

/-- The capture completed at its timer's end (R146, R148). -/
def completeCapture (s : State) (img : Image) (c : Capture) : State :=
  let avg := captureAverage s c
  let s := { drewAverage s c with wgu.capture := none }
  match c.kind with
  | .auto =>
    if mag (avg - img.calibratedZero) ≤ img.zeroWindow then
      weighChanged (State.emit (takeZero { s with wgu.base := .ready } avg) (.zeroCaptured avg .ready))
    else
      endOrderSession
        (weighChanged (State.emit { s with wgu.base := .locked .zeroDrift } (.zeroCaptured avg .zeroDrift)))
  | .verify =>
    endOrderSession
      (weighChanged (State.emit (takeZero { s with wgu.base := .verifyZeroDone } avg)
        (.zeroCaptured avg .verifyZeroDone)))

/-- A taken position sample in the WGU: what it abandons, then the test of the conditions (R144, R145). -/
def weighPosition (s : State) : State :=
  let s :=
    if s.sample.grip ≠ .opened then abandonCapture s .grip
    else if 20 ≤ mag s.sample.vz then abandonCapture s .moving
    else s
  testCapture s

/-- The own sample becoming stale in the WGU (R144, R145). -/
def weighStale (s : State) : State := testCapture (abandonCapture s .staleSample)

/-! ## Loss and recovery (R127) -/

/-- The load cell lost (R127): LOCKED(SENSOR), the capture abandoned, the session ended, the class LOADED. -/
def loseCell (s : State) : State :=
  let kind := s.wgu.capture.map (·.kind)
  let s := { s with wgu.base := .locked .sensor, wgu.capture := none }
  let s := match kind with
    | some k => s.emit (.captureAbandoned k .sensor)
    | none => s
  let s := endAnySession s
  weighChanged (classChanged { s with wgu.window := [], wgu.overCount := 0, wgu.loadClass := .loaded } s.wgu.loadClass)

/-- A good sample ends the loss: UNZEROED (R127). -/
def findCell (s : State) : State :=
  if cellLost s.wgu then weighChanged { s with wgu.base := .unzeroed } else s

/-- A good load sample kept by the LCP (R126). -/
def keepRaw (s : State) (raw : Int) (saturated : Bool) : State :=
  { s with lcp.latest := some { raw := raw, saturated := saturated, arrival := s.now }, lcp.since := s.now }

/-- A good load sample fed to the capture, the load class and the session, in turn (R126). The net is none where the
sample is DYNAMIC. -/
def feedSample (s : State) (img : Image) (raw : Int) (saturated : Bool) (net : Option Int) : State :=
  let s := feedCapture s raw saturated
  match net with
  | none => breakSession s
  | some v => feedSession (feedClass s img raw v saturated) v saturated

/-- What a sample changed, handed on once it is fed (R126): a SATURATED sample abandons the capture, the class changed from
`old`, and a stable session ends (log entry 10). -/
def handFed (s : State) (img : Image) (old : LoadClass) (saturated : Bool) : State :=
  let s := if saturated then abandonCapture s .saturated else s
  settleSession (classChanged s old) img

/-- A good load sample in the WGU (R126). -/
def weighSample (s : State) (img : Image) (raw : Int) (saturated : Bool) (net : Option Int) : State :=
  handFed (feedSample s img raw saturated net) img s.wgu.loadClass saturated

end Sys2Proof.Machine
end

