-- ==== Sys2Proof/Machine/Trucks.lean ====
section
/-! DEFINITION. The TBU (chapter 7): sums and content checks, versions and staleness, truck requests, peers' records,
position choice and the trailer commits. -/

namespace Sys2Proof.Machine

/-! ## Sums (R152) -/

/-- The share of a group in a position (R151). -/
def shareOf (p : Position) (g : Nat) : Nat :=
  match g with
  | 1 => p.share1
  | 2 => p.share2
  | 3 => p.share3
  | _ => 0

/-- The increment of a weight on a group of a position (R152). -/
def increment (p : Position) (w g : Nat) : Nat := (ceilDiv ((w * shareOf p g : Nat) : Int) 1000).toNat

/-- The weight that lies on a position. -/
def lyingOn (p : Position) : Nat := if p.loaded then p.weight.getD 0 else 0

/-- The cumulative weight of positions (R152). -/
def cumulativeOf (ps : List Position) : Nat := (ps.map lyingOn).sum

/-- The load of a group over positions (R152). -/
def groupLoad (ps : List Position) (g : Nat) : Nat := (ps.map fun p => increment p (lyingOn p) g).sum

/-- The loads of groups 1 to the group count (R152). -/
def groupLoads (d : TruckData) : List Nat := (upTo d.limits.length).map (groupLoad d.positions)

/-- Sums within the allowance and the group limits (R152, R153). -/
def withinLimits (d : TruckData) (cumulative : Nat) (loads : List Nat) : Bool :=
  decide (cumulative ≤ d.allowance) && (loads.zip d.limits).all fun q => decide (q.1 ≤ q.2)

/-! ## Content checks (R153) -/

/-- A number lies in a range. -/
def between (lo hi n : Nat) : Bool := decide (lo ≤ n ∧ n ≤ hi)

/-- Row 4 of R153 for one position: shares in range, none beyond the group count, 1000 in all. -/
def sharesOk (groups : Nat) (p : Position) : Bool :=
  between 0 1000 p.share1 && between 0 1000 p.share2 && between 0 1000 p.share3
    && (decide (2 ≤ groups) || p.share2 == 0) && (decide (3 ≤ groups) || p.share3 == 0)
    && p.share1 + p.share2 + p.share3 == 1000

/-- Row 5 of R153 for one position, in the zone and span of the own image. -/
def placeOk (img : Image) (zn : Zone) (p : Position) : Bool :=
  between 1 60000 p.maxKg && decide ((p.xOffset : Int) ≤ zn.x1 - zn.x0 ∧ (p.y : Int) ≤ img.span)

/-- Row 6 of R153: each position number once. -/
def planOk (d : TruckData) : Bool :=
  d.plan.length == d.positions.length && (upTo d.positions.length).all fun p => d.plan.count p == 1

/-- Row 7 of R153 for one position. -/
def loadedOk (p : Position) : Bool :=
  if p.loaded then
    (match p.coilId, p.weight with
      | some c, some w => between 1 4294967295 c && between 0 99990 w
      | _, _ => false)
  else p.coilId.isNone && p.weight.isNone

/-- Rows 1 to 7 of R153: the first failure. -/
def dataFail (img : Image) (zn : Zone) (d : TruckData) : Option ContentFail :=
  if !(between 1 99990 d.allowance && between 300 2500 d.deckHeight) then some .allowance
  else if !(between 1 3 d.limits.length && d.limits.all (between 1 99990)) then some .groups
  else if !between 1 6 d.positions.length then some .positionCount
  else if !d.positions.all (sharesOk d.limits.length) then some .shares
  else if !d.positions.all (placeOk img zn) then some .positionPlace
  else if !planOk d then some .planOrder
  else if !d.positions.all loadedOk then some .loadedFields
  else none

/-- The check of a TRUCK_ARRIVE's content (R153). -/
def arriveFail (img : Image) (zn : Zone) (d : TruckData) : Option ContentFail :=
  (dataFail img zn d).orElse fun _ =>
    if withinLimits d (cumulativeOf d.positions) (groupLoads d) then none else some .overLimit

/-- The check of a TRUCK_STATE's content (R153). -/
def stateFail (img : Image) (zn : Zone) (c : TruckContent) : Option ContentFail :=
  match c with
  | .noTruck => none
  | .present _ d cumulative loads =>
    (dataFail img zn d).orElse fun _ =>
      if cumulative = cumulativeOf d.positions ∧ loads = groupLoads d ∧ withinLimits d cumulative loads = true then none
      else some .sums

/-! ## Versions and staleness (R154, R155) -/

/-- The record of a bay. -/
def truckAt (s : State) (bay : Nat) : Truck := s.tbu.trucks.get bay

/-- A bay's versions changed, where it was STALE before or not: becoming STALE is reported and handed to the MOC; so is
the end of STALE, which also lets a waiting request go on (R155, R157). -/
def staleMoved (was : Bool) (s : State) (bay : Nat) : State :=
  match was, bayStale s.tbu bay with
  | false, true =>
    (s.emit (.truckStale bay (truckAt s bay).version (s.tbu.required.get bay))).hand (.bayChanged bay)
  | true, false => ((s.emit (.truckStaleClear bay)).hand (.bayChanged bay)).hand (.staleEnded bay)
  | _, _ => s

/-- The required version of a bay raised, never lowered (R155). -/
def putRequired (s : State) (bay v : Nat) : State :=
  { s with tbu.required := s.tbu.required.set bay (max (s.tbu.required.get bay) v) }

/-- The required version of a bay raised, with what follows from it (R155). -/
def raiseRequired (s : State) (bay v : Nat) : State := staleMoved (bayStale s.tbu bay) (putRequired s bay v) bay

/-- The version check (R155). -/
def versionCheck (s : State) (bay : Nat) : State :=
  if 1 ≤ bay ∧ bay ≤ 4 then raiseRequired s bay (highestSeen s.ptb bay) else s

/-- The version that an own change gives (R154). -/
def nextVersion (s : State) (bay : Nat) : Nat := max (truckAt s bay).version (s.tbu.required.get bay) + 1

/-- An own change would exceed version 65,535 (R154). -/
def atLimit (s : State) (bay : Nat) : Bool := decide (65535 < nextVersion s bay)

/-- TRUCK_VERSION_LIMIT at the first failure of a bay after each start (R154; log entry 21). -/
def tellLimit (s : State) (bay : Nat) : State :=
  if s.tbu.limitTold.get bay then s
  else State.emit { s with tbu.limitTold := s.tbu.limitTold.set bay true } (.truckVersionLimit bay)

/-- The record of a bay replaced. -/
def putTruck (s : State) (bay : Nat) (t : Truck) : State := { s with tbu.trucks := s.tbu.trucks.set bay t }

/-- The record of a bay replaced, with what follows from it (R155). -/
def setTruck (s : State) (bay : Nat) (t : Truck) : State := staleMoved (bayStale s.tbu bay) (putTruck s bay t) bay

/-- A changed record handed to the MOC where the active order uses the bay (R171). -/
def handBay (s : State) (bay : Nat) : State := if usesBay s.moc bay then s.hand (.bayChanged bay) else s

/-- An own change of a record: its version, its change window, its report (R154, R159, R162). -/
def ownChange (s : State) (bay : Nat) (c : TruckContent) : State :=
  let v := nextVersion s bay
  (setTruck s bay { version := v, content := c }).openChangeWindow bay

/-- The report of a changed record (R159, R163, R169, R170). -/
def tellUpdated (s : State) (bay : Nat) (src : TruckSource) : State :=
  s.emit (.truckUpdated bay (truckAt s bay).version src)

/-! ## Requests (R156 to R161) -/

/-- The zone target of a bay. -/
def bayTarget (img : Image) (bay : Nat) : Option Target := (bayZone img bay).map fun z => .zone z.id

/-- The TBU releases its holding of a bay's claim (R86). -/
def releaseBay (s : State) (bay : Nat) : State :=
  match s.cpt.image.bind fun img => bayTarget img bay with
  | none => s
  | some t => releaseClaim s t (.truck bay)

/-- A bay without a pending request. -/
def dropTruckReq (s : State) (bay : Nat) : State := { s with tbu.requests := s.tbu.requests.set bay none }

/-- A pending request ended without a change (R159 to R161). -/
def failTruckReq (s : State) (bay : Nat) (why : TruckFail) : State :=
  (releaseBay (dropTruckReq s bay) bay).emit (.truckRequestFailed bay why)

/-- What a request makes of a record, or why it fails (R158). -/
def requestChange (s : State) (img : Image) (zn : Zone) (bay : Nat) (k : TruckReqKind) :
    Except TruckFail TruckContent :=
  match k, (truckAt s bay).content with
  | .arrive d, .noTruck =>
    (match arriveFail img zn d with
      | some f => .error (.content f)
      | none => .ok (.present false d (cumulativeOf d.positions) (groupLoads d)))
  | .arrive _, .present _ _ _ _ => .error .notEmptyBay
  | .ready, .noTruck => .error .noTruck
  | .ready, .present true _ _ _ => .error .noChange
  | .ready, .present false d c l => .ok (.present true d c l)
  | .hold, .noTruck => .error .noTruck
  | .hold, .present true d c l => .ok (.present false d c l)
  | .hold, .present false _ _ _ => .error .noChange
  | .depart, .noTruck => .error .noTruck
  | .depart, .present _ _ _ _ => if usesBay s.moc bay then .error .loadActive else .ok .noTruck

/-- A request applied to the record as it stands, and ended (R158, R159). -/
def applyTruckReq (s : State) (img : Image) (zn : Zone) (bay : Nat) (k : TruckReqKind) : State :=
  match requestChange s img zn bay k with
  | .error why => failTruckReq s bay why
  | .ok c =>
    if atLimit s bay then failTruckReq (tellLimit s bay) bay .versionLimit
    else handBay (tellUpdated (releaseBay (dropTruckReq (ownChange s bay c) bay) bay) bay .own) bay

/-- A request whose claim is HELD: the version check, then applied, or WAIT_NEWER with the claim kept (R157). -/
def pursueTruckReq (s : State) (img : Image) (zn : Zone) (bay : Nat) (q : TruckReq) : State :=
  let s := versionCheck s bay
  if bayStale s.tbu bay = true ∧ q.kind ≠ .depart then
    { s with tbu.requests := s.tbu.requests.set bay (some { q with newer := true }) }
  else applyTruckReq s img zn bay q.kind

/-- The claim of a bay changed (R94, R155, R157): at HELD the version check and the pending request; out of HELD a
request in WAIT_NEWER returns to WAIT_CLAIM. -/
def bayClaimChanged (s : State) (bay : Nat) : State :=
  match s.cpt.image with
  | none => s
  | some img =>
    match bayZone img bay with
    | none => s
    | some zn =>
      let held := claimState s (.zone zn.id) == some .held
      match s.tbu.requests.get bay with
      | none => if held then versionCheck s bay else s
      | some q =>
        if held then pursueTruckReq s img zn bay q
        else { s with tbu.requests := s.tbu.requests.set bay (some { q with newer := false }) }

/-- A pending request when the bay stops being STALE, or when a newer record came (R157, R163): one that waits in
WAIT_NEWER goes on. -/
def staleEnded (s : State) (bay : Nat) : State :=
  match s.cpt.image with
  | none => s
  | some img =>
    match bayZone img bay, s.tbu.requests.get bay with
    | some zn, some q => if q.newer then pursueTruckReq s img zn bay q else s
    | _, _ => s

/-- A pending request at its timeout (R160). -/
def timeoutTruckReq (s : State) (bay : Nat) (q : TruckReq) : State :=
  failTruckReq s bay (if q.newer then .truckStale else .claimTimeout)

/-- A bay's pending request withdrawn (R161). -/
def withdrawTruckReq (s : State) (bay : Nat) (why : TruckFail) : State :=
  match s.tbu.requests.get bay with
  | none => s
  | some _ => failTruckReq s bay why

/-- Every pending request withdrawn (R161). -/
def withdrawTruckReqs (s : State) (why : TruckFail) : State :=
  [1, 2, 3, 4].foldl (fun t bay => withdrawTruckReq t bay why) s

/-- The ask of a bay's zone would be refused with CLAIM_LIST_FULL (R78, R156). -/
def askFull (s : State) (t : Target) : Bool := (findClaim s t).isNone && decide (6 ≤ s.clu.claims.length)

/-- An accepted truck request (R156, R157): kept pending, its claim asked at priority 7, and pursued where the claim is
HELD already. -/
def acceptTruckReq (s : State) (t : Target) (bay : Nat) (k : TruckReqKind) : State :=
  let q : TruckReq := { kind := k, acceptedAt := s.now, newer := false }
  let s := { s with tbu.requests := s.tbu.requests.set bay (some q) }
  State.hand (ask s t 7 (.truck bay)).1 (.truckClaim bay)

/-- A truck request served in RUNNING (R156). -/
def serveTruck (s : State) (tag : ReqTag) (r : Request) (bay : Nat) (k : TruckReqKind) : State :=
  match s.cpt.image.bind fun img => bayTarget img bay with
  | none => answer s tag r .badArg .argument .none
  | some t =>
    if (s.tbu.requests.get bay).isSome then answer s tag r .busy .none .none
    else if k = .depart ∧ usesBay s.moc bay = true then answer s tag r .refused .loadActive .none
    else if askFull s t then answer s tag r .refused .claimListFull .none
    else acceptTruckReq (answer s tag r .accepted .none .none) t bay k

/-! ## Peers' records (R163, R164) -/

/-- A peer's record of greater version applied (R163): the version check comes before STALE is judged, and so
TRUCK_STALE_CLEAR before TRUCK_UPDATED (log entry 66). -/
def applyTruckState (s : State) (n bay version : Nat) (c : TruckContent) : State :=
  let t := putRequired (putTruck s bay { version := version, content := c }) bay (highestSeen s.ptb bay)
  let s := staleMoved (bayStale s.tbu bay) t bay
  let s := handBay (tellUpdated s bay (.peer n)) bay
  if bayStale s.tbu bay then s else s.hand (.staleEnded bay)

/-- A peer's TRUCK_STATE taken by the TBU (R163, R164). -/
def takeTruckState (s : State) (n bay version : Nat) (c : TruckContent) : State :=
  match s.cpt.image with
  | none => s
  | some img =>
    match bayZone img bay with
    | none => s
    | some zn =>
      match stateFail img zn c with
      | some f => s.emit (.truckStateBad n bay f)
      | none =>
        let own := truckAt s bay
        if version < own.version then s
        else if version = own.version then
          if c = own.content then s
          else raiseRequired (s.emit (.truckVersionClash bay n version)) bay (version + 1)
        else applyTruckState s n bay version c

/-! ## Source test and position choice (R165 to R168) -/

/-- An eligible trailer source: its place and what the position records (R165). -/
structure TrailerSource where
  place : Place
  coilId : Option Nat
  weight : Option Nat
deriving DecidableEq, Repr

/-- The trailer source test on a record that the version check has passed over: the first failing row of R165. -/
def trailerSource (s : State) (img : Image) (bay pos : Nat) : SourceAnswer × Option TrailerSource :=
  match bayZone img bay, (truckAt s bay).content with
  | none, _ => (.failed .noSource, none)
  | some _, .noTruck => (.failed .noSource, none)
  | some zn, .present _ d _ _ =>
    match if 1 ≤ pos ∧ pos ≤ 6 then d.positions[pos - 1]? else none with
    | none => (.failed .noSource, none)
    | some p =>
      if bayStale s.tbu bay then (.truckStale, none)
      else if !p.loaded then (.failed .sourceNotOccupied, none)
      else if atLimit s bay then (.failed .versionLimit, none)
      else (.eligible, some { place := trailerPlace zn d.deckHeight p, coilId := p.coilId, weight := p.weight })

/-- A position is feasible for a weight on a record (R167). -/
def feasible (d : TruckData) (cumulative : Nat) (loads : List Nat) (p : Position) (m : Nat) : Bool :=
  !p.loaded && decide (m ≤ p.maxKg) && decide (cumulative + m ≤ d.allowance)
    && (upTo d.limits.length).all fun g =>
      decide (loads.getD (g - 1) 0 + increment p m g ≤ d.limits.getD (g - 1) 0)

/-- The first feasible position of a walk (R167). -/
def firstFeasible (d : TruckData) (cumulative : Nat) (loads : List Nat) (m : Nat) (walk : List Nat) : Option Nat :=
  walk.find? fun p =>
    match if 1 ≤ p then d.positions[p - 1]? else none with
    | none => false
    | some q => feasible d cumulative loads q m

/-- The choice of a position along a walk, on a record that the version check has passed over: the first failing row of
R166, or the position with its place. -/
def positionChoice (s : State) (img : Image) (bay : Nat) (m : Option Nat) (st : Option WeighStatus)
    (walk : List Nat → List Nat) : Except DestFail (Nat × Place) :=
  match bayZone img bay, (truckAt s bay).content with
  | some zn, .present true d cumulative loads =>
    if bayStale s.tbu bay then .error .truckStale
    else if !trusted s.wgu || st ≠ some .stable then .error .weighLocked
    else if atLimit s bay then .error (.noPosition .versionLimit)
    else
      match m with
      | none => .error (.noPosition .noFit)
      | some w =>
        match firstFeasible d cumulative loads w (walk d.plan) with
        | none => .error (.noPosition .noFit)
        | some p =>
          match d.positions[p - 1]? with
          | none => .error (.noPosition .noFit)
          | some q => .ok (p, trailerPlace zn d.deckHeight q)
  | _, _ => .error (.noPosition .notReady)

/-- The report of a choice that the version limit failed (R154). -/
def tellIfLimit (s : State) (bay : Nat) (r : Except DestFail (Nat × Place)) : State :=
  match r with
  | .error (.noPosition .versionLimit) => tellLimit s bay
  | _ => s

/-! ## Commits (R169, R170) -/

/-- A position of a record replaced. -/
def setPosition (ps : List Position) (pos : Nat) (p : Position) : List Position := ps.set (pos - 1) p

/-- The record of a position within the count. -/
def positionAt (d : TruckData) (pos : Nat) : Option Position := if 1 ≤ pos then d.positions[pos - 1]? else none

/-- TRUCK_COMMIT_LOST, which names the order's coil id, after TRUCK_VERSION_LIMIT where that is the failure (R154, R169, R170). -/
def loseCommit (s : State) (bay pos coil : Nat) (f : CommitFail) : State :=
  (if f = .versionLimit then tellLimit s bay else s).emit (.truckCommitLost bay pos coil f)

/-- The loads of a record with the increments of a weight on a position added (R152). -/
def addLoads (loads : List Nat) (p : Position) (w : Nat) : List Nat :=
  loads.mapIdx fun i l => l + increment p w (i + 1)

/-- The loads of a record with the increments of a weight on a position taken off (R152). -/
def subLoads (loads : List Nat) (p : Position) (w : Nat) : List Nat :=
  loads.mapIdx fun i l => l - increment p w (i + 1)

/-- The trailer place commit (R169). -/
def trailerPlaceCommit (s : State) (bay pos coil : Nat) (m : Nat) : State :=
  let s := versionCheck s bay
  match (truckAt s bay).content with
  | .noTruck => loseCommit s bay pos coil .noTruck
  | .present ready d cumulative loads =>
    match positionAt d pos with
    | none => loseCommit s bay pos coil .noTruck
    | some p =>
      if bayStale s.tbu bay then loseCommit s bay pos coil .truckStale
      else if !feasible d cumulative loads p m then loseCommit s bay pos coil .noFit
      else if atLimit s bay then loseCommit s bay pos coil .versionLimit
      else
        let q := { p with loaded := true, coilId := some coil, weight := some m }
        let c : TruckContent :=
          .present ready { d with positions := setPosition d.positions pos q } (cumulative + m) (addLoads loads p m)
        handBay (tellUpdated (ownChange s bay c) bay .own) bay

/-- The trailer pick commit, and the SOURCE_EMPTY finding where `found` is set (R170); the finding's report names the coil
id that the record held (log entry 54). -/
def trailerPickCommit (s : State) (bay pos coil : Nat) (found : Bool) : State :=
  let s := versionCheck s bay
  match (truckAt s bay).content with
  | .noTruck => loseCommit s bay pos coil .noTruck
  | .present ready d cumulative loads =>
    match positionAt d pos with
    | none => loseCommit s bay pos coil .noTruck
    | some p =>
      if bayStale s.tbu bay then loseCommit s bay pos coil .truckStale
      else if atLimit s bay then loseCommit s bay pos coil .versionLimit
      else if !p.loaded then s
      else
        let w := lyingOn p
        let q := { p with loaded := false, coilId := none, weight := none }
        let c : TruckContent :=
          .present ready { d with positions := setPosition d.positions pos q } (cumulative - w) (subLoads loads p w)
        let s := handBay (tellUpdated (ownChange s bay c) bay .own) bay
        if found then s.emit (.truckPositionFoundEmpty bay pos (p.coilId.getD coil)) else s

end Sys2Proof.Machine
end

