-- ==== Sys2Proof/Machine/Orders.lean ====
section
/-! DEFINITION. The MOC (chapter 8): activation, the claims of an order by role, the phases, DECIDE, landing, cancel and
redirect, the end of an order and ORDER_WAITING. -/

namespace Sys2Proof.Machine

/-! ## The active order -/

/-- The active order with its working fields changed. -/
def setActive (s : State) (f : Active → Active) : State := { s with moc.active := s.moc.active.map f }

/-- The coil's diameter in contact heights: that of the coil record, or Dmax (R182). -/
def coilDiameter (img : Image) (c : Coil) : Int :=
  match c.diameter with
  | some d => (d : Int)
  | none => img.dmax

/-- The contact height of a place (R182). -/
def contactHeight (img : Image) (c : Coil) (p : Place) : Int := p.seat + img.tongHang + coilDiameter img c

/-- The place an order's phase works at: the source's up to LIFT, the destination's from TO_DEST (R182). -/
def phasePlace (a : Active) (p : Phase) : Option Place :=
  match p with
  | .toSource => a.srcPlace
  | .pickLower => a.srcPlace
  | .lift => a.srcPlace
  | .toDest => a.destPlace
  | .placeLower => a.destPlace
  | .opening => a.destPlace
  | .clear => a.destPlace
  | .claimSource => none
  | .decide => none
  | .holdLoad => none
  | .claimDest => none

/-- A phase whose target lies at contact height (R182). -/
def atContact (p : Phase) : Bool :=
  match p with
  | .pickLower => true
  | .placeLower => true
  | .opening => true
  | _ => false

/-- The target and the contact height of a phase that works at a place (R182). -/
def Active.aimed (a : Active) (img : Image) : Active :=
  match phasePlace a a.phase with
  | none => a
  | some p =>
    let contact := if atContact a.phase then some (contactHeight img a.coil p) else none
    { a with contact := contact, targetX := p.x, targetY := p.y, targetZ := contact.getD img.travelHeight }

/-- The working fields as a phase is entered (R182, R196): its time, what is to be reported once in it, its target and
its contact height. -/
def Active.entering (a : Active) (img : Image) (own : Sample) (now : Nat) (p : Phase) : Active :=
  Active.aimed
    { a with phase := p, phaseAt := now, waitTold := false, gripHighTold := false, askRefused := false,
             contact := none, targetX := own.x, targetY := own.y, targetZ := img.travelHeight } img

/-- The TARGET of the active order (R182). -/
def sendTarget (s : State) : State :=
  match s.moc.active with
  | none => s
  | some a => s.emitTarget a.ord.id (.phase a.phase) a.targetX a.targetY a.targetZ

/-- Entry to a phase (R182, R196, R70, R92): the working fields, ORDER_STATE, TARGET, a permit computation, and the
hand-on to the CLU. -/
def enterPhase (s : State) (img : Image) (p : Phase) : State :=
  match s.moc.active with
  | none => s
  | some a =>
    let s := { s with moc.active := some (a.entering img s.sample s.now p) }
    ((sendTarget (s.emit (.orderState a.ord.id (.phase p)))).compute).hand .phaseChanged

/-- The return to DECIDE (R186). -/
def enterDecide (s : State) (img : Image) : State := (enterPhase s img .decide).hand .decide

/-! ## Claims by role (R178 to R180) -/

/-- The targets of a place on the store: the slot, and the claimable zone over it (R178). -/
def slotTargets (img : Image) (id : Nat) : List Target :=
  .slot id :: (match (slotPlace img id).bind fun p => zoneOver img p.x with
    | some z => [.zone z.id]
    | none => [])

/-- The targets of a bay: its zone (R178). -/
def bayTargets (img : Image) (bay : Nat) : List Target := (bayTarget img bay).toList

/-- The source claims of an order (R178). -/
def sourceTargets (img : Image) (o : Order) : List Target :=
  match o.source with
  | .slot id => slotTargets img id
  | .bay b _ => bayTargets img b

/-- The destination claims of a destination in use (R178). -/
def destTargets (img : Image) (d : DestUse) : List Target :=
  match d with
  | .slot id => slotTargets img id
  | .position b _ => bayTargets img b

/-- Whether a role of the order still needs a target. -/
def Active.needs (a : Active) (t : Target) : Bool :=
  a.srcClaims.contains t || a.destClaims.contains t || a.transit.any fun z => t == .zone z

/-- A target that no role of the order needs any longer is released (R180, R86). A zone that one role gives up is kept while
another role still needs it (log entry 60). -/
def releaseUnneeded (s : State) (t : Target) : State :=
  match s.moc.active with
  | none => s
  | some a => if a.needs t then s else releaseClaim s t .order

/-- A source claim released (R180). -/
def dropSource (s : State) (t : Target) : State :=
  releaseUnneeded (setActive s fun a => { a with srcClaims := a.srcClaims.filter fun u => u != t }) t

/-- A destination claim released (R180). -/
def dropDest (s : State) (t : Target) : State :=
  releaseUnneeded (setActive s fun a => { a with destClaims := a.destClaims.filter fun u => u != t }) t

/-- A transit claim released (R179). -/
def dropTransit (s : State) (z : Nat) : State :=
  releaseUnneeded (setActive s fun a => { a with transit := a.transit.filter fun u => u != z }) (.zone z)

/-- Every destination claim of the order released (R180, R187, R194). -/
def dropDests (s : State) : State :=
  match s.moc.active with
  | none => s
  | some a => a.destClaims.foldl dropDest s

/-- The number of claims the order holds in the own list (R178). -/
def orderClaims (s : State) : Nat := (s.clu.claims.filter fun c => c.holders.contains .order).length

/-- The order holds an entry on the target. -/
def orderHolds (s : State) (t : Target) : Bool :=
  match findClaim s t with
  | none => false
  | some c => c.holders.contains .order

/-- The order's claim on the target is HELD. -/
def orderHeld (s : State) (t : Target) : Bool := orderHolds s t && claimState s t == some .held

/-! ## The end of an order (R195, R198, R220) -/

/-- The phase of the final TARGET (R195). -/
def endPhase (e : OrderEnd) : TargetPhase :=
  match e with
  | .done => .done
  | .failed _ => .failed
  | .cancelled => .cancelled

/-- A record of an ended order kept, newest first, at most 4 (R198). -/
def keepEnded (s : State) (e : Ended) : State := { s with moc.ended := (e :: s.moc.ended).take 4 }

/-- The untracked-load mark at an order's end (R220). -/
def markAtEnd (s : State) (e : OrderEnd) : State :=
  match e with
  | .done => s
  | .failed _ => markUntracked s .orderEnd
  | .cancelled => markUntracked s .orderEnd

/-- Every claim the order holds released (R195). -/
def releaseAll (s : State) : State :=
  ((s.clu.claims.filter fun c => c.holders.contains .order).map (·.target)).foldl
    (fun t u => releaseClaim t u .order) s

/-- The final TARGET and report of an order, its record, and the hand-on to activation (R195 steps 3 to 7). -/
def finishOrder (s : State) (rec : Ended) : State :=
  let id := rec.ord.id
  let s := s.emitTarget id (endPhase rec.ending) s.sample.x s.sample.y s.sample.z
  let s := markAtEnd (s.emit (.orderState id (.ended rec.ending))) rec.ending
  (keepEnded (State.compute { s with moc.active := none }) rec).hand .activate

/-- The active order ended (R195). -/
def endOrder (s : State) (e : OrderEnd) : State :=
  match s.moc.active with
  | none => s
  | some a =>
    finishOrder (releaseAll (closeSession s a.ord.id))
      { ord := a.ord, ending := e, result := a.result, destUse := a.destUse }

/-! ## Asks (R178, R179) -/

/-- An ask of the order that would make a sixth claim of it (R178). -/
def asksSixth (s : State) (t : Target) : Bool := !orderHolds s t && decide (5 ≤ orderClaims s)

/-- One ask of the order (R178): one that would make a sixth claim is not made, and like one that finds the list full it
leaves the order to ask again (log entry 55); an invalid target ends the order. -/
def askOne (s : State) (t : Target) : State :=
  match s.moc.active with
  | none => s
  | some a =>
    if asksSixth s t then setActive s fun a => { a with askRefused := true }
    else
      match ask s t a.ord.prio .order with
      | (s, .listFull) => setActive s fun a => { a with askRefused := true }
      | (s, .badTarget) => endOrder s (.failed .badTarget)
      | (s, _) => s

/-- The asks of some targets, in order; none refused as long as none of them finds the list full. -/
def askTargets (s : State) (ts : List Target) : State :=
  ts.foldl askOne (setActive s fun a => { a with askRefused := false })

/-- The path of a phase (R179): from the own footprint to the footprint at the target; empty but in TO_SOURCE and
TO_DEST. -/
def phasePath (s : State) (img : Image) (a : Active) : Option Span :=
  let f := footprint img s.sample.x
  let path : Span := ⟨min f.lo (a.targetX - img.left), max f.hi (a.targetX + img.right)⟩
  match a.phase with
  | .toSource => some path
  | .toDest => some path
  | _ => none

/-- The transit candidates (R179). -/
def transitCandidates (s : State) (img : Image) (path : Span) : List Zone :=
  img.zones.filter fun z =>
    z.kind.claimable && z.xs.overlaps path && !(footprint img s.sample.x).overlaps z.xs
      && !orderHolds s (.zone z.id)

/-- The distance of a zone from the own footprint. -/
def zoneDistance (f : Span) (z : Zone) : Int := if f.hi < z.x0 then z.x0 - f.hi else f.lo - z.x1

/-- The zone nearest the own footprint; among equals the lowest id (log entry 25). -/
def nearestZone (f : Span) : List Zone → Option Zone
  | [] => none
  | z :: zs =>
    match nearestZone f zs with
    | none => some z
    | some k => if zoneDistance f k < zoneDistance f z then some k else some z

/-- At most n asks of transit candidates (R178, R179): the nearest is asked while no transit claim waits to be HELD and none
that would make a sixth claim; where the answer is HELD at once, the next one follows. -/
def askTransits (n : Nat) (s : State) (img : Image) : State :=
  match n with
  | 0 => s
  | n + 1 =>
    match s.moc.active with
    | none => s
    | some a =>
      match phasePath s img a with
      | none => s
      | some path =>
        if a.transit.any fun z => !orderHeld s (.zone z) && orderHolds s (.zone z) then s
        else if 5 ≤ orderClaims s then s
        else
          match nearestZone (footprint img s.sample.x) (transitCandidates s img path) with
          | none => s
          | some z =>
            let t := askTargets (setActive s fun a => { a with transit := (a.transit.filter fun k => k != z.id) ++ [z.id] })
              [.zone z.id]
            if orderHeld t (.zone z.id) then askTransits n t img else t

/-- The transit candidates asked, one at a time, the next when the one before is HELD (R179); with the limit of 5 claims of an
order (R178) there are at most 5 asks in a row. -/
def askTransit (s : State) (img : Image) : State := askTransits 5 s img

/-- The transit claims that the footprint and the path have left, released (R179). -/
def releaseTransits (s : State) (img : Image) : State :=
  match s.moc.active with
  | none => s
  | some a =>
    let f := footprint img s.sample.x
    let path := phasePath s img a
    (a.transit.filter fun z => match zoneAt img z with
      | none => false
      | some zn => !f.overlaps zn.xs && (match path with
        | none => true
        | some p => !zn.xs.overlaps p)).foldl dropTransit s

/-- The source zone released after lift-off, once the footprint has left it and while it is not the destination's
(R180). -/
def releaseSourceZone (s : State) (img : Image) : State :=
  match s.moc.active with
  | none => s
  | some a =>
    if a.lifted then
      (a.srcClaims.filter fun t => match t with
        | .slot _ => false
        | .other _ _ => false
        | .zone z => !a.destClaims.contains t && (match zoneAt img z with
          | none => false
          | some zn => !(footprint img s.sample.x).overlaps zn.xs)).foldl dropSource s
    else s

/-! ## Source test (R177, R183) -/

/-- The reason that a failed pick test gives an order (R195). -/
def pickReason (a : PickAnswer) : SourceAnswer :=
  match a with
  | .noSlot => .failed .noSlot
  | .notOccupied _ => .failed .sourceNotOccupied
  | .blocked => .failed .sourceBlocked
  | .claimed _ => .claimed
  | .buried _ => .failed .sourceBuried
  | .eligible => .eligible

/-- What the source test answers: the answer, the place of an eligible source, and the weight a trailer position
records. -/
structure SourceFound where
  answer : SourceAnswer
  place : Option Place
  weight : Option Nat
deriving DecidableEq, Repr

/-- The version check that goes ahead of a test on a bay source (R165). -/
def sourceVersion (s : State) (src : Source) : State :=
  match src with
  | .slot _ => s
  | .bay b _ => versionCheck s b

/-- The weight that a trailer position records, whatever the answer of the source test (R177). -/
def recordedWeight (s : State) (bay pos : Nat) : Option Nat :=
  match (truckAt s bay).content with
  | .noTruck => none
  | .present _ d _ _ => (positionAt d pos).bind fun p => if p.loaded then p.weight else none

/-- The source test of an order (R177): the pick test, or the trailer source test with the coil id of an UNLOAD. -/
def sourceTest (s : State) (img : Image) (o : Order) : SourceFound :=
  match o.source with
  | .slot id => { answer := pickReason (pickTest s img id), place := slotPlace img id, weight := none }
  | .bay b p =>
    match trailerSource s img b p with
    | (.eligible, some t) =>
      if o.kind = some .unload ∧ t.coilId ≠ some o.coil then
        { answer := .failed .coilIdDiffers, place := none, weight := t.weight }
      else { answer := .eligible, place := some t.place, weight := t.weight }
    | (ans, _) => { answer := ans, place := none, weight := recordedWeight s b p }

/-- The report of a source test that the version limit failed (R154; log entry 21). -/
def tellSourceLimit (s : State) (src : Source) (ans : SourceAnswer) : State :=
  match src, ans with
  | .bay b _, .failed .versionLimit => tellLimit s b
  | _, _ => s

/-- The coil record formed at activation (R177): the order's fields, and where they are absent those of the source slot
or the weight of the trailer position. -/
def formCoil (s : State) (o : Order) (found : SourceFound) : Coil :=
  let from_ : Coil := match o.source with
    | .slot id => ((slotRec s.smu id).map (·.coil)).getD {}
    | .bay _ _ => { weight := found.weight }
  { id := some o.coil, weight := o.weight.orElse fun _ => from_.weight,
    diameter := o.diameter.orElse fun _ => from_.diameter, width := o.width.orElse fun _ => from_.width }

/-! ## Activation (R177) -/

/-- An order as it becomes ACTIVE (R174, R177). -/
def newActive (o : Order) (img : Image) (c : Coil) : Active :=
  { ord := o, phase := .claimSource, coil := c, result := none, destUse := none, diverted := none,
    primaryDropped := false, excluded := [], bayExcluded := false, gripHeight := none, lifted := false,
    contact := none, phaseAt := 0, srcPlace := none, destPlace := none, targetX := 0, targetY := 0, targetZ := 0,
    srcClaims := sourceTargets img o, destClaims := [], transit := [], askRefused := false, waitTold := false,
    gripHighTold := false, usedWeight := none }

/-- CLAIM_SOURCE entered, its claims asked, and the test whether they are HELD (R178, R183). -/
def enterClaimSource (s : State) (img : Image) : State :=
  let s := enterPhase s img .claimSource
  match s.moc.active with
  | none => s
  | some a => (askTargets s a.srcClaims).hand .progress

/-- Activation tested (R177): the head waiting order becomes ACTIVE in CLAIM_SOURCE, or ends FAILED. -/
def activate (s : State) : State :=
  match s.moc.active, s.cpt.image, s.moc.waiting with
  | none, some img, o :: rest =>
    if s.rlc.nodeState ≠ .running then s
    else
      let s := sourceVersion s o.source
      let found := sourceTest s img o
      let s := tellSourceLimit s o.source found.answer
      match found.answer with
      | .failed r =>
        finishOrder { s with moc.waiting := rest } { ord := o, ending := .failed r, result := none, destUse := none }
      | _ =>
        enterClaimSource { s with moc.waiting := rest, moc.active := some (newActive o img (formCoil s o found)) } img
  | _, _, _ => s

/-! ## Giving up a destination slot (R174, R181, R188, R193) -/

/-- A slot at the tail of the excluded list; a ninth id displaces the oldest, and an id listed stays in its place
(R174). -/
def excludeSlot (xs : List Nat) (id : Nat) : List Nat :=
  if xs.contains id then xs
  else if 8 ≤ xs.length then xs.drop 1 ++ [id] else xs ++ [id]

/-- The destination slot released and excluded, and the order back in DECIDE. -/
def giveUpSlot (s : State) (img : Image) (id : Nat) : State :=
  enterDecide (setActive (dropDest s (.slot id)) fun a => { a with excluded := excludeSlot a.excluded id }) img

/-! ## DECIDE (R186, R187) -/

/-- What a choice is asked with for the active order (R115, R186). -/
def wantedOf (a : Active) : Wanted :=
  { diameter := a.coil.diameter, width := a.coil.width, weight := coilWeight a.result a.coil, excluded := a.excluded }

/-- A destination tried (R121, R122, R166): the state with the reports of the choice, and the place in use or the
failure. -/
def tryDest (s : State) (img : Image) (a : Active) (d : Dest) : State × Except DestFail (DestUse × Place) :=
  match d with
  | .slot id =>
    (match candidateFail s img (wantedOf a) id, slotPlace img id with
      | none, some p => (s, .ok (.slot id, p))
      | f, _ => (s, .error (.noSlot f)))
  | .area r1 r2 tier =>
    (match areaChoice s img (wantedOf a) r1 r2 (tier.getD .any) with
      | none => (s.emit (.slotChoiceEmpty a.ord.id r1 r2), .error (.noSlot none))
      | some id =>
        (match slotPlace img id with
          | none => (s, .error (.noSlot none))
          | some p => (s.emit (.slotChosen a.ord.id id (slotCost s img id)), .ok (.slot id, p))))
  | .bay b =>
    let s := versionCheck s b
    let r := positionChoice s img b (coilWeight a.result a.coil) (a.result.map (·.status)) id
    (match r with
      | .error f => (tellIfLimit s b r, .error f)
      | .ok (pos, p) => (s.emit (.truckPositionChosen a.ord.id b pos), .ok (.position b pos, p)))

/-- The primary is a bay. -/
def isBay (d : Dest) : Bool :=
  match d with
  | .bay _ => true
  | _ => false

/-- Why the primary is skipped (R186). -/
def skipPrimary (a : Active) : Option DestFail :=
  if a.primaryDropped then some .cancel
  else if a.result.map (·.flag) = some .mismatch then some .mismatch
  else if isBay a.ord.dest && a.bayExcluded then some (.noPosition .earlyContact)
  else none

/-- The primary tried, unless it is skipped (R186). -/
def tryPrimary (s : State) (img : Image) (a : Active) : State × Except DestFail (DestUse × Place) :=
  match skipPrimary a with
  | some f => (s, .error f)
  | none => tryDest s img a a.ord.dest

/-- The alternate tried, where there is one (R186, R187). -/
def tryAlternate (s : State) (img : Image) (a : Active) : State × Except DestFail (DestUse × Place) :=
  match a.ord.alt with
  | none => (s, .error .noAlternate)
  | some d => tryDest s img a d

/-- CLAIM_DEST entered: its claims asked, and the test whether they are HELD (R178, R188). -/
def enterClaimDest (s : State) (img : Image) : State :=
  let s := enterPhase s img .claimDest
  match s.moc.active with
  | none => s
  | some a => (askTargets s a.destClaims).hand .progress

/-- A settled destination taken in use (R186): the claims it does not need released, and CLAIM_DEST entered. -/
def useDest (s : State) (img : Image) (d : DestUse) (p : Place) (why : Option DestFail) : State :=
  let needed := destTargets img d
  match s.moc.active with
  | none => s
  | some a =>
    let s := (a.destClaims.filter fun t => !needed.contains t).foldl dropDest s
    let s := setActive s fun a =>
      { a with destUse := some d, destPlace := some p, diverted := why, destClaims := needed,
               usedWeight := coilWeight a.result a.coil }
    enterClaimDest s img

/-- HOLD_LOAD entered (R187). -/
def enterHold (s : State) (img : Image) (primary alternate : DestFail) : State :=
  match s.moc.active with
  | none => s
  | some a => (dropDests (enterPhase s img .holdLoad)).emit (.orderHeld a.ord.id primary alternate)

/-- DECIDE settles the destination in use (R186). -/
def settleDest (s : State) : State :=
  match s.moc.active, s.cpt.image with
  | some a, some img =>
    if a.phase ≠ .decide then s
    else
      match tryPrimary s img a with
      | (s, .ok (d, p)) => useDest s img d p none
      | (s, .error why) =>
        match tryAlternate s img a with
        | (s, .ok (d, p)) => useDest (s.emit (.orderDiverted a.ord.id why)) img d p (some why)
        | (s, .error second) => enterHold s img why second
  | _, _ => s

/-! ## Arrival and the tests at a phase entry (R182, R183, R188, R189) -/

/-- The hook has arrived at the target (R182). -/
def arrived (own : Sample) (a : Active) : Bool :=
  decide (mag (own.x - a.targetX) ≤ 50 ∧ mag (own.y - a.targetY) ≤ 50)

/-- The hook has cleared (R182). -/
def cleared (own : Sample) (img : Image) : Bool := decide (img.travelHeight - 50 ≤ own.z)

/-- The position in use tested again (R168): FEASIBLE, with its place as the record stands, and the state after the version
check and its reports. -/
def positionFits (s : State) (img : Image) (a : Active) (bay pos : Nat) : State × Option Place :=
  let s := versionCheck s bay
  let r := positionChoice s img bay a.usedWeight (a.result.map (·.status)) fun _ => [pos]
  match r with
  | .ok (_, p) => (s, some p)
  | .error _ => (tellIfLimit s bay r, none)

/-- The destination place of the active order. -/
def setDestPlace (s : State) (p : Place) : State := setActive s fun a => { a with destPlace := some p }

/-- The arrival at the source or destination place (R183, R189). -/
def arrive (s : State) (img : Image) : State :=
  match s.moc.active with
  | none => s
  | some a =>
    match a.phase, a.destUse with
    | .toSource, _ => enterPhase s img .pickLower
    | .toDest, some (.position b p) =>
      (match positionFits s img a b p with
        | (s, some place) => enterPhase (setDestPlace s place) img .placeLower
        | (s, none) => enterDecide s img)
    | .toDest, _ => enterPhase s img .placeLower
    | _, _ => s

/-- The tests at entry to a phase of travel or to CLEAR, against the held sample; none while it is stale (R182). -/
def entryTest (s : State) (img : Image) : State :=
  match s.moc.active with
  | none => s
  | some a =>
    if s.sampleStale then s
    else
      match a.phase with
      | .toSource => if arrived s.sample a then arrive s img else s
      | .toDest => if arrived s.sample a then arrive s img else s
      | .clear => if cleared s.sample img then endOrder s .done else s
      | _ => s

/-- A phase of travel or CLEAR entered; its tests follow as a hand-on. -/
def enterTested (s : State) (img : Image) (p : Phase) : State := (enterPhase s img p).hand .progress

/-- CLAIM_SOURCE with every source claim HELD: the source test again (R183). -/
def claimSourceTest (s : State) (img : Image) (a : Active) : State :=
  let s := sourceVersion s a.ord.source
  let found := sourceTest s img a.ord
  let s := tellSourceLimit s a.ord.source found.answer
  match found.answer with
  | .eligible => enterTested (setActive s fun a => { a with srcPlace := found.place }) img .toSource
  | .claimed => s
  | .truckStale => s
  | .failed r => endOrder s (.failed r)

/-- CLAIM_DEST with every destination claim HELD (R188). -/
def claimDestTest (s : State) (img : Image) (a : Active) : State :=
  match a.destUse with
  | some (.position b p) =>
    (match positionFits s img a b p with
      | (s, some place) => enterTested (setDestPlace s place) img .toDest
      | (s, none) => enterDecide s img)
  | _ => enterTested s img .toDest

/-- The destination slot whose claim is WAITING, where there is one (R188). -/
def lostSlot (s : State) (a : Active) : Option Nat :=
  match a.destUse with
  | some (.slot id) => if claimState s (.slot id) = some .waiting then some id else none
  | _ => none

/-- The tests of the present phase (R179, R182, R183, R188). At entry to TO_SOURCE and TO_DEST the transit claims are asked
first and the arrival is tested against the held sample after them (DESIGN CHOICE, log entry 68: no rule orders the
two). -/
def progress (s : State) : State :=
  match s.moc.active, s.cpt.image with
  | some a, some img =>
    (match a.phase with
      | .claimSource => if a.srcClaims.all (orderHeld s) then claimSourceTest s img a else s
      | .claimDest =>
        (match lostSlot s a with
          | some id => giveUpSlot s img id
          | none => if a.destClaims.all (orderHeld s) then claimDestTest s img a else s)
      | .toSource => entryTest (askTransit s img) img
      | .toDest => entryTest (askTransit s img) img
      | .clear => entryTest s img
      | _ => s)
  | _, _ => s

/-! ## Changes of the order's claims (R178, R181) -/

/-- A claim of the order left HELD (R181). -/
def claimLeft (s : State) (img : Image) (a : Active) (t : Target) : State :=
  match a.phase with
  | .toSource => if a.srcClaims.contains t then enterClaimSource s img else s
  | .claimDest =>
    if a.destClaims.contains t then
      (match t with
        | .slot id => giveUpSlot s img id
        | .zone _ => s
        | .other _ _ => s)
    else s
  | .toDest =>
    if a.destClaims.contains t then
      (match t with
        | .slot id => giveUpSlot s img id
        | .zone _ => enterClaimDest s img
        | .other _ _ => s)
    else s
  | _ => s

/-- A change of the order's entry on a target that did not leave HELD (R178, R179, R183, R188). -/
def claimMoved (s : State) (img : Image) (a : Active) : State :=
  match a.phase with
  | .claimSource => progress s
  | .claimDest => progress s
  | .toSource => askTransit s img
  | .toDest => askTransit s img
  | _ => s

/-- The CLU's answer to the order on a change of an entry (R95, R181). -/
def orderClaimChanged (s : State) (id : Nat) (t : Target) (left : Bool) : State :=
  match s.moc.active, s.cpt.image with
  | some a, some img =>
    if a.ord.id ≠ id then s
    else if left then claimLeft s img a t
    else claimMoved s img a
  | _, _ => s

/-- An entry removed from the own claim list: an order whose ask was refused asks again (R178). -/
def askAgain (s : State) : State :=
  match s.moc.active, s.cpt.image with
  | some a, some img =>
    if !a.askRefused then s
    else
      (match a.phase with
        | .claimSource => (askTargets s a.srcClaims).hand .progress
        | .claimDest => (askTargets s a.destClaims).hand .progress
        | .toSource => askTransit (setActive s fun a => { a with askRefused := false }) img
        | .toDest => askTransit (setActive s fun a => { a with askRefused := false }) img
        | _ => s)
  | _, _ => s

/-! ## PICK_LOWER, LIFT and results (R184, R185) -/

/-- The ORDER session of the active order opened (R184, R185). -/
def openFor (s : State) (img : Image) (a : Active) (atLiftOff : Bool) : State :=
  openOrderSession s img (.order a.ord.id a.coil.id a.coil.weight) atLiftOff

/-- A stack stands on the order's slot source: an upper slot over it is OCCUPIED or UNKNOWN in the own map, whatever
the pick test answers. The node never lifts from under one (R114), and in LIFT before lift-off it stops the lift (R192);
for the moment of the stop see log entry 64. -/
def underStack (s : State) (img : Image) (a : Active) : Bool :=
  match a.ord.source with
  | .slot id => !(stackOver img s.smu id).isEmpty
  | .bay _ _ => false

/-- The grip CLOSED sample (R184): ELIGIBLE and SOURCE_CLAIMED enter LIFT, where a stack that the peer's claim hides stops
the lift at once (R114). -/
def gripClosed (s : State) (img : Image) (a : Active) : State :=
  let s := setActive s fun a => { a with gripHeight := some s.sample.z }
  let lift := openFor (enterPhase s img .lift) img a false
  match a.ord.source with
  | .bay _ _ => lift
  | .slot id =>
    match pickReason (pickTest s img id) with
    | .failed r => endOrder s (.failed r)
    | _ => if underStack s img a then endOrder lift (.failed .sourceBuried) else lift

/-- A position sample in PICK_LOWER (R184). -/
def watchGrip (s : State) (img : Image) (a : Active) : State :=
  if s.sample.grip ≠ .closed then s
  else if s.sample.z ≤ a.contact.getD 0 + 150 then gripClosed s img a
  else if a.gripHighTold then s
  else State.emit (setActive s fun a => { a with gripHighTold := true }) (.gripClosedHigh a.ord.id s.sample.z)

/-- Lift-off with the class EMPTY (R185): the SOURCE_EMPTY finding, and the order ends. -/
def liftEmpty (s : State) (img : Image) (a : Active) : State :=
  let s := match a.ord.source with
    | .slot id => landingFinding s img id false
    | .bay b p => trailerPickCommit s b p a.ord.coil true
  endOrder s (.failed .sourceEmpty)

/-- Lift-off with the class not EMPTY (R185): the pick commit, the source slot released, and the weigh result or a new
session. -/
def liftLoaded (s : State) (img : Image) (a : Active) : State :=
  let s := match a.ord.source with
    | .slot id => pickCommit s img id a.coil
    | .bay b p => trailerPickCommit s b p a.ord.coil false
  let s := setActive s fun a => { a with lifted := true }
  let s := match a.ord.source with
    | .slot id => dropSource s (.slot id)
    | .bay _ _ => s
  if a.result.isSome then enterDecide s img else openFor s img a true

/-- A position sample in LIFT: a stack on the source stops the lift ahead of everything else (R114; log entry 64); lift-off
is the first sample with z ≥ grip height + 200 (R185). -/
def watchLift (s : State) (img : Image) (a : Active) : State :=
  if a.lifted then s
  else if underStack s img a then endOrder s (.failed .sourceBuried)
  else if s.sample.z < a.gripHeight.getD 0 + 200 then s
  else if s.wgu.loadClass = .empty then liftEmpty s img a
  else liftLoaded s img a

/-- A result taken before lift-off (R185). -/
def goodBeforeLift (r : WeighResult) : Bool :=
  (match r.status with
    | .stable => true
    | .unstable => true
    | .overRange => true
    | .noResult => false
    | .underZero => false)
    && decide (1000 ≤ r.weight.getD 0)

/-- A weigh result handed to the MOC (R139, R185). -/
def takeResult (s : State) (r : WeighResult) (atLiftOff : Bool) : State :=
  match s.moc.active, s.cpt.image, r.kind with
  | some a, some img, .order id _ _ =>
    if a.ord.id ≠ id ∨ a.phase ≠ .lift then s
    else if a.lifted then
      (if atLiftOff then enterDecide (setActive s fun a => { a with result := some r }) img else s)
    else if goodBeforeLift r then setActive s fun a => { a with result := some r }
    else s
  | _, _, _ => s

/-! ## PLACE_LOWER, OPEN and CLEAR (R190, R191) -/

/-- The coil is down: by the net against half the reference weight, or by the class without one (R190). None: this
sample decides nothing. -/
def coilDown (s : State) (a : Active) (net : Option Int) : Option Bool :=
  match coilWeight a.result a.coil with
  | some w => net.map fun v => decide (v * 2 < (w : Int))
  | none => some (s.wgu.loadClass == .empty)

/-- EARLY_CONTACT (R190): the target at travel height, the finding, the slot released and excluded, back to DECIDE. -/
def earlyContact (s : State) (img : Image) (a : Active) : State :=
  let s := sendTarget (setActive s fun a => { a with targetZ := img.travelHeight })
  match a.destUse with
  | some (.slot id) => giveUpSlot (landingFinding s img id true) img id
  | some (.position b p) =>
    enterDecide (State.emit (setActive s fun a => { a with bayExcluded := true }) (.earlyContact a.ord.id b p)) img
  | none => enterDecide s img

/-- The coil down in PLACE_LOWER (R190): landed, with LOW_LANDING, or EARLY_CONTACT. -/
def landed (s : State) (img : Image) (a : Active) : State :=
  let c := a.contact.getD 0
  let z := s.sample.z
  if c + 150 < z then earlyContact s img a
  else
    let s := if z < c - 150 then s.emit (.lowLanding a.ord.id z) else s
    enterPhase s img .opening

/-- A load sample in the MOC (R190, R191). -/
def landingWatch (s : State) (net : Option Int) : State :=
  match s.moc.active, s.cpt.image with
  | some a, some img =>
    (match a.phase, coilDown s a net with
      | .placeLower, some true => landed s img a
      | .opening, some false => enterPhase s img .placeLower
      | _, _ => s)
  | _, _ => s

/-- The grip OPEN sample (R191): the place commit, and CLEAR entered. -/
def gripOpened (s : State) (img : Image) (a : Active) : State :=
  let s := match a.destUse with
    | some (.slot id) => placeCommit s img id a.coil a.result
    | some (.position b p) => trailerPlaceCommit s b p a.ord.coil (a.usedWeight.getD 0)
    | none => s
  enterTested s img .clear

/-! ## Position samples (R182 to R191; one decision a sample, log entry 35) -/

/-- The phase's decision at a taken position sample. -/
def decideSample (s : State) (img : Image) (a : Active) : State :=
  match a.phase with
  | .toSource => if arrived s.sample a then arrive s img else s
  | .toDest => if arrived s.sample a then arrive s img else s
  | .pickLower => watchGrip s img a
  | .lift => watchLift s img a
  | .opening => if s.sample.grip = .opened then gripOpened s img a else s
  | .clear => if cleared s.sample img then endOrder s .done else s
  | _ => s

/-- A taken position sample in the MOC: the phase's decision, then the source zone and the transit claims (log entry 35;
at entry to a phase the other order, log entry 68). -/
def ordersSample (s : State) : State :=
  match s.moc.active, s.cpt.image with
  | some a, some img => askTransit (releaseTransits (releaseSourceZone (decideSample s img a) img) img) img
  | _, _ => s

/-! ## Changes of source and destination (R192, R193) -/

/-- A change of the order's slot source (R192): the answer of the pick test decides. Where an earlier row of it hides a stack,
the change itself is no action, as R192's table has it, and the stack stops the order in LIFT, at its entry or at the
next own sample (R114; gripClosed, watchLift; log entry 64). -/
def sourceSlotChanged (s : State) (img : Image) (a : Active) (id : Nat) : State :=
  match a.phase with
  | .claimSource => progress s
  | .toSource =>
    (match pickReason (pickTest s img id) with
      | .failed r => endOrder s (.failed r)
      | _ => s)
  | .pickLower =>
    (match pickReason (pickTest s img id) with
      | .failed r => endOrder s (.failed r)
      | _ => s)
  | .lift =>
    if !a.lifted && decide (pickReason (pickTest s img id) = .failed .sourceBuried) then
      endOrder s (.failed .sourceBuried)
    else s
  | _ => s

/-- A change of the order's slot destination in use (R193; for a SLOT_BLOCK log entry 56). -/
def destSlotChanged (s : State) (img : Image) (a : Active) (id : Nat) : State :=
  match a.phase with
  | .claimDest => if (candidateFail s img (wantedOf a) id).isSome then giveUpSlot s img id else s
  | .toDest => if (candidateFail s img (wantedOf a) id).isSome then giveUpSlot s img id else s
  | _ => s

/-- A slot change handed on to the active order (R102, R192, R193). -/
def orderSlotChanged (s : State) (id : Nat) : State :=
  match s.moc.active, s.cpt.image with
  | some a, some img =>
    let s := if a.ord.source = .slot id then sourceSlotChanged s img a id else s
    (match s.moc.active with
      | some b => if b.destUse = some (.slot id) then destSlotChanged s img b id else s
      | none => s)
  | _, _ => s

/-- A change of the order's bay source (R192). -/
def sourceBayChanged (s : State) (img : Image) (a : Active) (b p : Nat) : State :=
  let judge : State :=
    let s := versionCheck s b
    match (trailerSource s img b p).1 with
    | .failed r => endOrder (tellSourceLimit s (.bay b p) (.failed r)) (.failed r)
    | _ => s
  match a.phase with
  | .claimSource => progress s
  | .toSource => judge
  | .pickLower => judge
  | _ => s

/-- A change of the order's bay destination in use (R193). -/
def destBayChanged (s : State) (img : Image) (a : Active) (b p : Nat) : State :=
  let judge : State :=
    match positionFits s img a b p with
    | (s, some _) => s
    | (s, none) => enterDecide s img
  match a.phase with
  | .claimDest => judge
  | .toDest => judge
  | _ => s

/-- A change of a bay's record where the bay is the order's source (R192). -/
def bayAtSource (s : State) (img : Image) (a : Active) (bay : Nat) : State :=
  match a.ord.source with
  | .bay b p => if b = bay then sourceBayChanged s img a b p else s
  | .slot _ => s

/-- A change of a bay's record where the bay is that of the destination in use (R193). -/
def bayAtDest (s : State) (img : Image) (bay : Nat) : State :=
  match s.moc.active with
  | none => s
  | some a =>
    match a.destUse with
    | some (.position b p) => if b = bay then destBayChanged s img a b p else s
    | some (.slot _) => s
    | none => s

/-- The place of a trailer position as the record of its bay stands (R182). -/
def bayPlace (s : State) (img : Image) (bay pos : Nat) : Option Place :=
  match bayZone img bay, (truckAt s bay).content with
  | some zn, .present _ d _ _ => (positionAt d pos).map (trailerPlace zn d.deckHeight)
  | _, _ => none

/-- The places of an order on bays, as the records stand; a place once settled is kept where its position is gone. -/
def Active.following (a : Active) (s : State) (img : Image) : Active :=
  let src := match a.ord.source with
    | .bay b p => bayPlace s img b p
    | .slot _ => none
  let dest := match a.destUse with
    | some (.position b p) => bayPlace s img b p
    | some (.slot _) => none
    | none => none
  { a with srcPlace := a.srcPlace.map src.getD, destPlace := a.destPlace.map dest.getD }

/-- The target follows the record of a bay, and a TARGET goes out where it changes (R182; log entry 57). -/
def followBays (s : State) (img : Image) : State :=
  match s.moc.active with
  | none => s
  | some a =>
    let b := (a.following s img).aimed img
    let t := { s with moc.active := some b }
    if a.targetX = b.targetX ∧ a.targetY = b.targetY ∧ a.targetZ = b.targetZ then t else sendTarget t

/-- A truck record change handed on to the active order (R171, R182, R192, R193). -/
def orderBayChanged (s : State) (bay : Nat) : State :=
  match s.moc.active, s.cpt.image with
  | some a, some img => followBays (bayAtDest (bayAtSource s img a bay) img bay) img
  | _, _ => s

/-! ## Requests (R175, R187, R194) -/

/-- The orders in the queue: the active one and those waiting (R176). -/
def queueIds (m : Moc) : List Nat := (m.active.map (·.ord.id)).toList ++ m.waiting.map (·.id)

/-- A waiting order put by priority, behind those of equal priority (R176). -/
def insertOrder (o : Order) : List Order → List Order
  | [] => [o]
  | q :: qs => if q.prio < o.prio then o :: q :: qs else q :: insertOrder o qs

/-- The pick test at submit refuses only for BURIED (R175). -/
def buriedAt (s : State) (img : Image) (o : Order) : Option (List Nat) :=
  match o.source with
  | .bay _ _ => none
  | .slot id =>
    match pickTest s img id with
    | .buried ids => some ids
    | _ => none

/-- SUBMIT_ORDER served in RUNNING (R175). -/
def serveSubmit (s : State) (tag : ReqTag) (r : Request) (o : Order) : State :=
  match s.cpt.image with
  | none => answer s tag r .badArg .argument .none
  | some img =>
    if !orderOk img o then answer s tag r .badArg .argument .none
    else if (queueIds s.moc).contains o.id then answer s tag r .refused .duplicateId .none
    else if 8 ≤ (queueIds s.moc).length then answer s tag r .refused .queueFull .none
    else
      match buriedAt s img o with
      | some ids => answer s tag r .refused (.sourceBuried ids) .none
      | none =>
        let s := answer s tag r .ok .none .none
        let s := { s with moc.waiting := insertOrder o s.moc.waiting }
        (s.emit (.orderState o.id .queued)).hand .activate

/-- A phase that a cancel diverts from, once the coil is lifted (R194). -/
def divertsFrom (p : Phase) : Bool :=
  match p with
  | .decide => true
  | .holdLoad => true
  | .claimDest => true
  | .toDest => true
  | .placeLower => true
  | _ => false

/-- A lifted order cancelled to its alternate: in LIFT it stays there, else its destination claims are released and it
returns to DECIDE (R194). -/
def divertCancelled (s : State) (a : Active) : State :=
  let s := State.emit (setActive s fun a => { a with primaryDropped := true }) (.cancelDiverted a.ord.id)
  match s.cpt.image with
  | none => s
  | some img => if divertsFrom a.phase then enterDecide (dropDests s) img else s

/-- A waiting order removed by a cancel, and kept among the ended records (R194, R198). -/
def cancelWaiting (s : State) (o : Order) : State :=
  let s := { s with moc.waiting := s.moc.waiting.filter fun q => q.id != o.id }
  keepEnded (s.emit (.orderState o.id (.ended .cancelled)))
    { ord := o, ending := .cancelled, result := none, destUse := none }

/-- CANCEL_ORDER of the active order (R194). -/
def cancelActive (s : State) (tag : ReqTag) (r : Request) (a : Active) : State :=
  match a.phase with
  | .opening => answer s tag r .refused .orderEnding .none
  | .clear => answer s tag r .refused .orderEnding .none
  | _ =>
    if a.lifted then
      if a.ord.alt.isSome && !a.primaryDropped then divertCancelled (answer s tag r .ok .none .none) a
      else answer s tag r .refused .holdingLoad .none
    else endOrder (answer s tag r .ok .none .none) .cancelled

/-- CANCEL_ORDER served in RUNNING (R194). -/
def serveCancel (s : State) (tag : ReqTag) (r : Request) (id : Nat) : State :=
  match s.moc.active.bind fun a => if a.ord.id = id then some a else none with
  | some a => cancelActive s tag r a
  | none =>
    match s.moc.waiting.find? fun o => o.id == id with
    | some o => cancelWaiting (answer s tag r .ok .none .none) o
    | none => answer s tag r .refused .noOrder .none

/-- REDIRECT served in RUNNING (R187). -/
def serveRedirect (s : State) (tag : ReqTag) (r : Request) (id : Nat) (d : Dest) : State :=
  match s.cpt.image with
  | none => answer s tag r .badArg .argument .none
  | some img =>
    if !destOk img d then answer s tag r .badArg .argument .none
    else if !(queueIds s.moc).contains id then answer s tag r .refused .noOrder .none
    else
      match s.moc.active with
      | none => answer s tag r .refused .notHeld .none
      | some a =>
        if a.ord.id ≠ id ∨ a.phase ≠ .holdLoad then answer s tag r .refused .notHeld .none
        else
          let s := answer s tag r .ok .none .none
          let s := setActive s fun a =>
            { a with ord := { a.ord with dest := d }, primaryDropped := false, bayExcluded := false }
          enterDecide s img

/-! ## ORDER_WAITING (R196) -/

/-- NONE where a permit is above 0, else its cause (R196). -/
def permitCause (p : Permit) : WaitCause := if 0 < p.speed then .none else .permit p.cause

/-- The cause of a wait for claims (R196). -/
def claimCause (s : State) (a : Active) : WaitCause :=
  if a.askRefused then .claimListFull
  else
    match s.clu.claims.find? fun c => c.holders.contains .order && c.state != .held with
    | some c => .claim c.target (some c.state)
    | none =>
      match a.ord.source with
      | .bay b _ => if bayStale s.tbu b then .truckStale else .sourceClaimed
      | .slot _ => .sourceClaimed

/-- The cause of a wait in travel (R196; at equality log entry 58). -/
def travelCause (s : State) (a : Active) : WaitCause :=
  if s.sampleStale then .staleSample
  else
    let p := s.epu.record.permits
    if 50 < mag (s.sample.x - a.targetX) then
      permitCause (if s.sample.x < a.targetX then p.gantryPlus else p.gantryMinus)
    else permitCause (if s.sample.y < a.targetY then p.trolleyPlus else p.trolleyMinus)

/-- The cause of a wait for the hoist (R196; at equality log entry 58). -/
def hoistCause (s : State) (a : Active) : WaitCause :=
  if s.sampleStale then .staleSample
  else permitCause (if s.sample.z < a.targetZ then s.epu.record.permits.hoistUp else s.epu.record.permits.hoistDown)

/-- The cause of a wait by the phase (R196; in DECIDE log entry 58). -/
def waitCause (s : State) (a : Active) : WaitCause :=
  match a.phase with
  | .claimSource => claimCause s a
  | .claimDest => claimCause s a
  | .toSource => travelCause s a
  | .toDest => travelCause s a
  | .pickLower => hoistCause s a
  | .lift => hoistCause s a
  | .placeLower => hoistCause s a
  | .clear => hoistCause s a
  | .opening => .grip
  | .decide => .none
  | .holdLoad => .none

end Sys2Proof.Machine
end

