-- ==== Sys2Proof/Machine/Work.lean ====
section
/-! DEFINITION. The hand-ons between blocks, served first in first out inside the command that made them (log entry 9). -/

namespace Sys2Proof.Machine

/-- One hand-on served by the block it was handed to. -/
def serveWork (s : State) (w : Work) : State :=
  match w with
  | .orderClaim id t _ left => orderClaimChanged s id t left
  | .truckClaim bay => bayClaimChanged s bay
  | .claimRemoved => askAgain s
  | .slotChanged slot => orderSlotChanged s slot
  | .bayChanged bay => orderBayChanged s bay
  | .staleEnded bay => staleEnded s bay
  | .weighResult r atLiftOff => takeResult s r atLiftOff
  | .activate => activate s
  | .decide => settleDest s
  | .progress => progress s
  | .phaseChanged => resettleSlots s

/-- Hand-ons served in turn until none is left; the count bounds the walk. -/
def runWork : Nat → State → State
  | 0, s => s
  | k + 1, s =>
    match s.work with
    | [] => s
    | w :: rest => runWork k (serveWork { s with work := rest } w)

/-- Every hand-on of a command served before the command ends. -/
def State.finish (s : State) : State := runWork 512 s

/-- One millisecond passes with no command waiting (log entry 1). -/
def State.tick (s : State) : State := { s with now := s.now + 1 }

end Sys2Proof.Machine
end

