-- ==== Sys2Proof/Machine/NodeStates.lean ====
section
/-! DEFINITION. The node states (1.4 to 1.8): the straps, the entry to each state, RESTART and the starts. -/

namespace Sys2Proof.Machine

/-- The node state changed, reported with the fault cause on entry to FAULT, and handed to the EPU (R15). -/
def setNode (s : State) (st : NodeState) (cause : FaultCause) : State :=
  (State.emit { s with rlc.nodeState := st } (.nodeState st cause)).compute

/-- The joining and resuming timers stopped. -/
def stopTimers (s : State) : State :=
  { s with rlc.joinDue := none, rlc.joinEnd := none, rlc.resumeEnd := none }

/-- CONFIG entered (R1, R16, R25). -/
def enterConfig (s : State) : State := setNode (State.clearQueue s) .config .none

/-- A random nonzero 16-bit check pattern drawn (R18; log entry 5). -/
def drawPattern (s : State) : State := { s.drew with rlc.pattern := some (1 + s.drawn % 65535) }

/-- JOINING entered (R18): the pattern drawn, a JOIN queued, the join timer and the LINE_TX_FAIL count started. -/
def enterJoining (s : State) : State :=
  let s := drawPattern (State.clearQueue s)
  let s := { s with rlc.joinConfirmed := false, rlc.joinDue := some (s.now + 200), rlc.joinEnd := some (s.now + 1000),
                    rlc.txSince := s.now }
  State.offer (setNode s .joining .none) (.fixed (joinBody s))

/-- RUNNING entered from JOINING (R18, R7, R8, R177): a BEACON and a PROFILE queued, activation tested. A JOIN that still
waits in the queue stays there: R1 empties it on other entries only (log entry 51). -/
def enterRunning (s : State) : State :=
  (State.queueProfile (State.queueBeacon (setNode (stopTimers s) .running .none))).hand .activate

/-- RUNNING entered from RESUMING (R23, R8, R177). -/
def resumeRunning (s : State) : State :=
  (State.queueProfile (setNode (stopTimers s) .running .none)).hand .activate

/-- PARKED entered (R21, R93, R161, R7): claims removed, truck requests withdrawn, a BEACON queued at once. -/
def enterParked (s : State) : State :=
  State.queueBeacon (withdrawTruckReqs (parkClaims (setNode s .parked .none)) .nodeParked)

/-- RESUMING entered (R23): a BEACON queued at once, the resume timer started. -/
def enterResuming (s : State) : State :=
  let s := State.queueBeacon (setNode s .resuming .none)
  { s with rlc.resumeEnd := some (s.now + 300) }

/-- The frames that a faulted node queues at once (R24): a BEACON, and a PROFILE on entry from JOINING; none without a
crane number. -/
def faultFrames (s : State) (cause : FaultCause) (fromJoining : Bool) : State :=
  if cause = .duplicateNumber then
    let s := State.queueBeacon s
    if fromJoining then State.queueProfile s else s
  else { s with rlc.beaconDue := none, rlc.profileDue := none }

/-- FAULT entered (R24, R26, R93, R161, R197): timers stopped, conflicts ended, the active order failed, truck requests
withdrawn, the queue left with a BEACON alone. -/
def enterFault (s : State) (cause : FaultCause) : State :=
  let fromJoining := s.rlc.nodeState == .joining
  let s := setNode { stopTimers s with rlc.lastFault := cause } .fault cause
  let s := endOrder (endConflicts s) (.failed .nodeFault)
  let s := State.keepBeacon (withdrawTruckReqs s .nodeFault)
  faultFrames s cause fromJoining

/-- The straps read and the crane number they give kept (R16). -/
def readStraps (s : State) (t : Straps) : State :=
  { s with rlc.straps := some t, rlc.craneNo := strapNumber t }

/-! ## Power-on and the reset pin (R16, R27) -/

/-- Everything at the values of power-on and the reset pin; the serial, the line, the random source and the commands
that wait are outside them. -/
def State.blank (s : State) (cause : StopCause) : State :=
  { State.reset with serial := s.serial, draws := s.draws, pending := s.pending,
                     rlc := { Rlc.fresh cause with lineBusy := s.rlc.lineBusy } }

/-- RESET left (R16): the clock starts, the straps give a number and CONFIG, or FAULT with cause NO_NUMBER. -/
def leaveReset (s : State) (t : Straps) : State :=
  let s := readStraps { s with now := 0 } t
  match strapNumber t with
  | some _ => enterConfig s
  | none => enterFault s .noNumber

/-! ## RESTART (R25) -/

/-- The RLC after RESTART, before its straps are read (R25, R26, R27). -/
def restartRlc (r : Rlc) : Rlc :=
  { Rlc.fresh (if r.nodeState = .fault then .restartFromFault else .restartRequest) with
    nodeState := r.nodeState, lineBusy := r.lineBusy, noticeSeq := r.noticeSeq, txDropped := r.txDropped,
    rxBad := r.rxBad, lastFault := r.lastFault, txSince := r.txSince }

/-- The image under construction discarded unless it was validated (R27, R217). The output queue stays as it stands (R203),
a TARGET still waiting in it too, which is then sent with no order active, against R205 (log entry 65). -/
def restartCpt (c : Cpt) : Cpt := { c with stream := none, draft := if c.image.isSome then c.draft else [] }

/-- What RESTART discards and keeps, block by block (R25, R46, R73, R96, R125, R150, R172, R198, R217). A capture, the
STALE of a bay, the own claims (R93, R95) and the orders end without a report, CLAIM_STATE REMOVED among them (log entry 52). -/
def discard (s : State) : State :=
  { s with
    rlc := restartRlc s.rlc, ptb := Ptb.fresh, clu := Clu.fresh,
    epu := { s.epu with record := Epu.fresh.record, obstacles := Epu.fresh.obstacles, clash := [] },
    wgu.capture := none, wgu.session := none,
    tbu.required := PerBay.all 0, tbu.requests := PerBay.all none, tbu.limitTold := PerBay.all false,
    moc.active := none, moc.waiting := [], moc.ended := [], cpt := restartCpt s.cpt }

/-- The soft reset (R25): the untracked-load mark (R220), the discarding, the straps, and the state they lead to. -/
def softReset (s : State) (t : Straps) : State :=
  let s := readStraps (discard (markUntracked s .restart)) t
  match strapNumber t with
  | none => enterFault s .noNumber
  | some _ => if s.cpt.image.isSome then enterJoining s else enterConfig s

/-! ## START (R216) -/

/-- The held sample clamped again by the new limits (R207). -/
def reclampSample (img : Image) (p : Sample) : Sample :=
  { p with x := clamp 0 img.runway p.x, y := clamp 0 img.span p.y }

/-- The blocks take the validated image (R216): zone table and geometry with it, the slot map, the working zero, the
peers' profiles and positions, the held sample. -/
def takeImage (s : State) (img : Image) : State :=
  let s := { s with cpt.image := some img, cpt.held := s.cpt.held.map (reclampSample img),
                    smu.slots := formMap img, wgu.zero := img.calibratedZero }
  recheckPeers s img

end Sys2Proof.Machine
end

