-- ==== Sys2Proof/Machine/Resets.lean ====
section
/-! DEFINITION. The starts: POWER_ON, RESET_PIN_ASSERT, RESET_RELEASE (R16, R27). -/

namespace Sys2Proof.Machine

/-- What a command answers. -/
abbrev Answer := Host.Outcome State Fault Refusal

/-- POWER_ON: RESET entered, everything at its power-on value (R16, R27). -/
def execPowerOn (s : State) : Answer := .next (State.blank s .powerOn)

/-- RESET_PIN_ASSERT: RESET entered, the same state cleared (R16, R27). -/
def execResetPinAssert (s : State) : Answer := .next (State.blank s .resetPin)

/-- RESET_RELEASE: RESET left by the straps (R16). -/
def execResetRelease (t : Straps) (s : State) : Answer :=
  .next (State.finish (if s.rlc.nodeState = .reset then leaveReset s t else s))

end Sys2Proof.Machine
end

