-- ==== Sys2Proof/Machine/Line.lean ====
section
/-! DEFINITION. Line access: LINE_BUSY, LINE_IDLE, TX_WAIT_EXPIRY, TX_BIT_MISMATCH, TX_FRAME_END (R2, R3). -/

namespace Sys2Proof.Machine

/-- The wait of the head frame as the line becomes busy: suspended with the backoff it drew (R2). -/
def suspend (a : Access) : Access :=
  match a with
  | .counting b => .suspended b
  | .suspended b => .suspended b
  | .none => .none
  | .sending => .sending

/-- The wait of the head frame as the line goes idle: counted again in full, without a new draw (R2). -/
def resume (a : Access) : Access :=
  match a with
  | .suspended b => .counting b
  | .counting b => .counting b
  | .none => .none
  | .sending => .sending

/-- LINE_BUSY (R2). -/
def execLineBusy (s : State) : Answer :=
  .next { s with rlc.lineBusy := true, rlc.access := suspend s.rlc.access }

/-- LINE_IDLE (R2). -/
def execLineIdle (s : State) : Answer :=
  .next { s with rlc.lineBusy := false, rlc.access := resume s.rlc.access }

/-- The head frame filled in, encoded and put on the line (R1, R2, R85, R218). -/
def startSending (s : State) (i : TxItem) : State :=
  { s with rlc.access := .sending, rlc.wire := Codec.encode (ownFrame s (fillItem s i)) }

/-- TX_WAIT_EXPIRY: the wait ran out with the line still idle, so the head frame is sent (R2). -/
def execTxWaitExpiry (s : State) : Answer :=
  .next (match s.rlc.access, s.rlc.queue with
    | .counting _, i :: _ => startSending s i
    | _, _ => s)

/-- A failed attempt (R3): a new wait with a new backoff, or after the third the frame dropped and counted. -/
def failAttempt (s : State) : State :=
  if 2 ≤ s.rlc.attempts then State.dropHead { s with rlc.txDropped := satAdd s.rlc.txDropped 1 }
  else State.beginAttempt { s with rlc.attempts := s.rlc.attempts + 1 }

/-- TX_BIT_MISMATCH (R3). -/
def execTxBitMismatch (s : State) : Answer :=
  .next (if s.rlc.access = .sending then failAttempt s else s)

/-- A successful attempt (R3, R4): its time recorded, LINE_TX_FAIL cleared, the frame removed. -/
def frameSent (s : State) : State := State.dropHead { s with rlc.txSince := s.now, rlc.txFail := false }

/-- TX_FRAME_END (R3). -/
def execTxFrameEnd (s : State) : Answer :=
  .next (if s.rlc.access = .sending then frameSent s else s)

end Sys2Proof.Machine
end

