-- ==== Sys2Proof/Machine/Reads.lean ====
section
/-! DEFINITION. The reads: READ_STATUS, READ_SLOT, READ_SLOTS, READ_PEER, READ_TRUCK, READ_ORDER (R45, R124, R150, R171,
R198, R211, R212). Apart from its response and a slot stream a read changes nothing. -/

namespace Sys2Proof.Machine

/-! ## Slots (R124, R212) -/

/-- The peers' claims on a target (R95, R124). -/
def peerClaimsOn (p : Ptb) (t : Target) : List PeerClaim :=
  p.peers.flatMap fun q => (entriesOn q t).map fun e => { n := q.n, held := e.held }

/-- The answer for an id that refers to no slot: a record marked absent (R124). -/
def absentSlot (id : Nat) : SlotView :=
  { id := id, data := none, upper := (slotPos id).upper, x := 0, y := 0, seat := 0, top := 0, columnTop := none,
    ownClaim := none, peerClaims := [] }

/-- The answer of READ_SLOT (R124). -/
def viewSlot (s : State) (id : Nat) : SlotView :=
  match s.cpt.image with
  | none => absentSlot id
  | some img =>
    match slotPlace img id, slotRec s.smu id with
    | some p, some r =>
      let q := slotPos id
      { id := id, data := some r, upper := q.upper, x := p.x, y := p.y, seat := p.seat,
        top := recTop img q.upper r,
        columnTop := if q.upper then none else some (columnTop img s.smu q.row q.p),
        ownClaim := claimState s (.slot id), peerClaims := peerClaimsOn s.ptb (.slot id) }
    | _, _ => absentSlot id

/-- The number of slots whose record meets a condition. -/
def countSlots (m : Smu) (p : SlotRec → Bool) : Nat := (m.slots.filter fun t => p t.data).length

/-! ## Trucks (R171) -/

/-- The answer of READ_TRUCK (R171): for a bay without a bound zone its record, NO_TRUCK, marked no bay. -/
def viewBay (s : State) (bay : Nat) : RespContent :=
  match s.cpt.image.bind fun img => bayTarget img bay with
  | none => .noBay (truckAt s bay)
  | some t =>
    .bay
      { truck := truckAt s bay, required := s.tbu.required.get bay, stale := bayStale s.tbu bay,
        highest := highestSeen s.ptb bay, claim := claimState s t, request := s.tbu.requests.get bay,
        requestAge := match s.tbu.requests.get bay with
          | none => 0
          | some q => s.now - q.acceptedAt }

/-- A record is in NO_TRUCK. -/
def isNoTruck (t : Truck) : Bool :=
  match t.content with
  | .noTruck => true
  | .present _ _ _ _ => false

/-- A record is in PRESENT_HOLD. -/
def isHeldTruck (t : Truck) : Bool :=
  match t.content with
  | .present ready _ _ _ => !ready
  | .noTruck => false

/-- A record is READY. -/
def isReadyTruck (t : Truck) : Bool :=
  match t.content with
  | .present ready _ _ _ => ready
  | .noTruck => false

/-! ## Orders (R198) -/

/-- The claims of the active order with their states (R198). -/
def orderClaimViews (s : State) : List ClaimView :=
  (s.clu.claims.filter fun c => c.holders.contains .order).map fun c => { target := c.target, state := c.state }

/-- The answer of READ_ORDER: the order in the queue, else the newest ended record (R198). -/
def viewOrder (s : State) (id : Nat) : Option OrderView :=
  match s.moc.active.bind fun a => if a.ord.id = id then some a else none with
  | some a => some (.active a (orderClaimViews s))
  | none =>
    match s.moc.waiting.find? fun o => o.id == id with
    | some o => some (.queued o)
    | none => (s.moc.ended.find? fun e => e.ord.id == id).map .ended

/-! ## Status (R150, R211) -/

/-- The weighing group (R150); the age while there is no raw sample is log entry 59. -/
def viewWeighing (s : State) : WeighStatusView :=
  { state := weighView s.wgu, zero := s.wgu.zero, loadClass := s.wgu.loadClass, windowCount := s.wgu.window.length,
    overCount := s.wgu.overCount, session := s.wgu.session.map (·.kind), last := s.wgu.last, latest := s.lcp.latest,
    latestAge := match s.lcp.latest with
      | none => 0
      | some r => s.now - r.arrival,
    lost := cellLost s.wgu, bad := s.lcp.bad }

/-- The number of peer records of a liveness (R45). -/
def countPeers (p : Ptb) (l : Liveness) : Nat := (p.peers.filter fun q => q.liveness == l).length

/-- The answer of READ_STATUS (R211). -/
def viewStatus (s : State) : StatusView :=
  { nodeState := s.rlc.nodeState, craneNo := s.rlc.craneNo, straps := s.rlc.straps, lastStop := s.rlc.lastStop,
    lastFault := s.rlc.lastFault, txFail := s.rlc.txFail, image := imageState s.cpt,
    txDropped := s.rlc.txDropped, rxBad := s.rlc.rxBad, cpBad := s.cpt.cpBad, cpOverrun := s.cpt.cpOverrun,
    skipped := s.cpt.skipped, old := s.cpt.old, dropped := s.cpt.dropped,
    held := s.cpt.held, sampleAge := s.sampleAge, sampleStale := s.sampleStale,
    peers := s.ptb.peers.length, live := countPeers s.ptb .live, stale := countPeers s.ptb .stale,
    lost := countPeers s.ptb .lost, claims := s.clu.claims, conflicts := s.clu.conflicts,
    weighing := viewWeighing s,
    slotsUnknown := countSlots s.smu fun r => r.content == .unknown,
    slotsEmpty := countSlots s.smu fun r => r.content == .empty,
    slotsOccupied := countSlots s.smu fun r => r.content == .occupied,
    slotsBlocked := countSlots s.smu fun r => r.blocked,
    slotsDisputed := countSlots s.smu fun r => r.disputed,
    baysNoTruck := (s.tbu.trucks.toList.filter isNoTruck).length,
    baysHold := (s.tbu.trucks.toList.filter isHeldTruck).length,
    baysReady := (s.tbu.trucks.toList.filter isReadyTruck).length,
    baysStale := ([1, 2, 3, 4].filter fun b => bayStale s.tbu b).length,
    orders := (queueIds s.moc).length, activeId := s.moc.active.map (·.ord.id),
    activePhase := s.moc.active.map (·.phase), untracked := s.moc.untracked }

/-! ## The commands -/

/-- READ_STATUS (R211). -/
def execReadStatus (s : State) : Answer :=
  .next (takeRequest s .readStatus fun s tag r => answer s tag r .ok .none (.status (viewStatus s)))

/-- READ_SLOT served (R124). -/
def serveReadSlot (s : State) (tag : ReqTag) (r : Request) : State :=
  match r with
  | .readSlot id =>
    if 1 ≤ id ∧ id ≤ 920 then answer s tag r .ok .none (.slot (viewSlot s id))
    else answer s tag r .badArg .argument .none
  | _ => s

/-- READ_SLOT (R124). -/
def execReadSlot (s : State) : Answer := .next (takeRequest s .readSlot serveReadSlot)

/-- The number of records that a READ_SLOTS streams (R212). -/
def streamLength (s : State) (count : Nat) : Nat := min count s.smu.slots.length

/-- READ_SLOTS served: the answer with n, and the stream begun where n is above 0 (R212). -/
def serveReadSlots (s : State) (tag : ReqTag) (r : Request) : State :=
  match r with
  | .readSlots start count =>
    if ¬(1 ≤ start ∧ start ≤ 920 ∧ 1 ≤ count ∧ count ≤ 920) then answer s tag r .badArg .argument .none
    else if s.cpt.stream.isSome then answer s tag r .busy .none .none
    else
      let n := streamLength s count
      let s := answer s tag r .ok .none (.count n)
      if n = 0 then s else { s with cpt.stream := some { seq := tag.seq, next := start, k := 1, n := n } }
  | _ => s

/-- READ_SLOTS (R212; log entry 33). -/
def execReadSlots (s : State) : Answer := .next (takeRequest s .readSlots serveReadSlots)

/-- READ_PEER served (R45). -/
def serveReadPeer (s : State) (tag : ReqTag) (r : Request) : State :=
  match r with
  | .readPeer n =>
    if ¬(1 ≤ n ∧ n ≤ 8) ∨ s.rlc.craneNo = some n then answer s tag r .badArg .argument .none
    else answer s tag r .ok .none (.peer n (peerAt s.ptb n) (trackAt s.smu n))
  | _ => s

/-- READ_PEER (R45). -/
def execReadPeer (s : State) : Answer := .next (takeRequest s .readPeer serveReadPeer)

/-- READ_TRUCK served (R171). -/
def serveReadTruck (s : State) (tag : ReqTag) (r : Request) : State :=
  match r with
  | .readTruck bay =>
    if 1 ≤ bay ∧ bay ≤ 4 then answer s tag r .ok .none (viewBay s bay)
    else answer s tag r .badArg .argument .none
  | _ => s

/-- READ_TRUCK (R171). -/
def execReadTruck (s : State) : Answer := .next (takeRequest s .readTruck serveReadTruck)

/-- READ_ORDER served (R198). -/
def serveReadOrder (s : State) (tag : ReqTag) (r : Request) : State :=
  match r with
  | .readOrder id =>
    (match viewOrder s id with
      | some v => answer s tag r .ok .none (.order v)
      | none => answer s tag r .refused .noOrder .none)
  | _ => s

/-- READ_ORDER (R198). -/
def execReadOrder (s : State) : Answer := .next (takeRequest s .readOrder serveReadOrder)

end Sys2Proof.Machine
end

