-- ==== Sys2Proof/Machine/Port.lean ====
section
/-! DEFINITION. The crane port: frames in (R199, R200), frames that R199 answers, slot stream records (R212) and records
sent (R203). -/

namespace Sys2Proof.Machine

/-- What a frame with a correct CRC puts into the request buffer (R199, R200): the kind is judged first, then the length,
by the header and by the request that the payload spells, if any. -/
def bufferOf (h : Codec.PortFrame) (q : Option Request) : BufFrame :=
  match Codec.reqKindOf h.kind with
  | none => .bad h.seq (.unknown h.kind) .unknownKind
  | some k =>
    match q with
    | none => .bad h.seq (.known k) .length
    | some r =>
      if h.payload.length = h.length ∧ reqKind r = k then .request { seq := h.seq, payload := h.payload } r
      else .bad h.seq (.known k) .length

/-- A frame put into the request buffer, or discarded and counted while it holds 4 (R200). -/
def bufferFrame (s : State) (b : BufFrame) : State :=
  if 4 ≤ s.cpt.reqBuf.length then { s with cpt.cpOverrun := satAdd s.cpt.cpOverrun 1 }
  else { s with cpt.reqBuf := s.cpt.reqBuf ++ [b] }

/-- A frame received (R199): a wrong CRC and an unusable POSITION frame counted in CP_BAD, any other kind put into the
request buffer. A POSITION frame that is usable comes by POSITION_SAMPLE (log entry 2). -/
def receivePort (f : CpFrame) (s : State) : State :=
  match Codec.openPort f.bytes with
  | none => countBadFrame s
  | some h =>
    if h.kind = 32 then if Codec.usablePosition h then s else countBadFrame s
    else bufferFrame s (bufferOf h f.request)

/-- CP_FRAME_RECEIVED (R199, R200). -/
def execCpFrameReceived (f : CpFrame) (s : State) : Answer :=
  .next (if s.rlc.nodeState = .reset then s else receivePort f s)

/-- A frame that R199 answers, at the head of the buffer and free to be taken (R200). -/
def headBad (s : State) : Option (Nat × RespKind × Reason) :=
  match s.cpt.reqBuf with
  | .bad seq k why :: _ => if mayTake s then some (seq, k, why) else none
  | _ => none

/-- UNKNOWN_REQUEST_TAKEN: answered BAD_ARG without the test of R201 (R199, R200). -/
def execUnknownRequestTaken (s : State) : Answer :=
  .next (match headBad s with
    | none => s
    | some (seq, k, why) =>
      (dropRequest s).queueResponse
        { seq := seq, kind := k, status := .badArg, reason := why, content := .none, repeated := false })

/-! ## Slot stream (R212) -/

/-- The first existing id at or after an id, in a walk that wraps from 920 to 1 (R212). -/
def nextExisting (m : Smu) (id : Nat) : Option Nat :=
  let ids := m.slots.map (·.id)
  (ids.find? fun k => decide (id ≤ k)).orElse fun _ => ids.head?

/-- The stream after its record of an id: the walk steps on, and ends with its n-th record (R212). -/
def stepStream (t : Stream) (id : Nat) : Option Stream :=
  if t.n ≤ t.k then none else some { t with k := t.k + 1, next := if 920 ≤ id then 1 else id + 1 }

/-- SLOT_STREAM_RECORD: the next record formed and queued, while fewer than 8 wait (R203, R212). -/
def execSlotStreamRecord (s : State) : Answer :=
  .next (match s.cpt.stream with
    | none => s
    | some t =>
      if 8 ≤ waitingOut isStream s.cpt.out then s
      else
        match nextExisting s.smu t.next with
        | none => { s with cpt.stream := none }
        | some id =>
          let c := pushOut s.cpt s.stamp (.stream t.seq t.k (viewSlot s id))
          { s with cpt := { c with stream := stepStream t id } })

/-! ## Records sent (R203) -/

/-- The oldest record sent: a record other than a response carries the output sequence, which is then raised by 1, with 0
after 65,535 (R203; log entry 16). -/
def sendRecord (c : Cpt) (r : OutRecord) (rest : List OutRecord) : Cpt :=
  let bytes := Codec.encodeOut c.outSeq r
  if isResponse r.body then { c with out := rest, sent := some { outSeq := none, record := r, bytes := bytes } }
  else
    { c with out := rest, outSeq := (c.outSeq + 1) % 65536,
             sent := some { outSeq := some c.outSeq, record := r, bytes := bytes } }

/-- OUTPUT_RECORD_SENT (R203). -/
def execOutputRecordSent (s : State) : Answer :=
  .next (match s.cpt.out with
    | [] => s
    | r :: rest => { s with cpt := sendRecord s.cpt r rest })

end Sys2Proof.Machine
end

