-- ==== Sys2Proof/Machine/Receive.lean ====
section
/-! DEFINITION. Reception on the runway line: the checks of R5, duplicate evidence (R19, R20), the routing of R6, and one
command for each frame kind. -/

namespace Sys2Proof.Machine

/-! ## Checks (R5, R219) -/

/-- What becomes of a received frame: not received in RESET, counted in RX_BAD, the own readback, duplicate evidence, or
routed (R5, R6). -/
inductive Heard where
  | unheard | bad | readback | duplicate | routed
deriving DecidableEq, Repr

/-- The judgement of a received frame (R5, R6, R219). -/
def heard (s : State) (f : Frame) : Heard :=
  if s.rlc.nodeState = .reset then .unheard
  else if !Codec.frameOk f then .bad
  else if s.rlc.craneNo = some f.sender then (if f.serial = s.serial then .readback else .duplicate)
  else .routed

/-- A frame discarded and counted in RX_BAD (R5). -/
def countBad (s : State) : State := { s with rlc.rxBad := satAdd s.rlc.rxBad 1 }

/-! ## Duplicate evidence (R19, R20) -/

/-- DUPLICATE_SEEN, once for each serial (R20). -/
def sayDuplicate (s : State) (serial : Nat) : State :=
  if s.rlc.dupSeen.contains serial then s
  else State.emit { s with rlc.dupSeen := s.rlc.dupSeen ++ [serial] } (.duplicateSeen serial)

/-- A frame of the own number with another serial (R19, R20): by the node state and the kind. -/
def heardDuplicate (s : State) (f : Frame) : State :=
  match s.rlc.nodeState, f.body with
  | .joining, .join _ _ => enterFault s .duplicateNumber
  | .joining, .welcome _ _ => enterFault s .duplicateNumber
  | .joining, .beacon _ => enterFault s .duplicateNumber
  | .config, .join _ _ => sayDuplicate s f.serial
  | .config, .beacon _ => sayDuplicate s f.serial
  | .running, .join _ _ => sayDuplicate s f.serial
  | .running, .beacon _ => enterFault s .duplicateNumber
  | .resuming, .join _ _ => sayDuplicate s f.serial
  | .resuming, .beacon _ => enterFault s .duplicateNumber
  | .parked, .join _ _ => sayDuplicate s f.serial
  | .parked, .beacon _ => enterFault s .duplicateNumber
  | _, _ => s

/-- A received frame checked, judged as evidence, or routed (R5, R6). -/
def receive (s : State) (f : Frame) (route : State → State) : State :=
  match heard s f with
  | .unheard => s
  | .bad => countBad s
  | .readback => s
  | .duplicate => heardDuplicate s f
  | .routed => route s

/-! ## Answers to a JOIN (R8, R10) -/

/-- The JOIN's number and pattern are those last answered (R10). -/
def answered (s : State) (n pattern : Nat) : Bool := s.rlc.welcomed.contains (n, pattern)

/-- A PROFILE delay of 0 to 100 ms drawn (R8; log entry 5). -/
def delayProfile (s : State) : State :=
  { s.drew with rlc.profileDelays := s.rlc.profileDelays ++ [s.now + s.drawn % 101] }

/-- A WELCOME delay of 0 to 50 ms drawn, and the pattern remembered (R10; log entry 5). -/
def delayWelcome (s : State) (n pattern : Nat) : State :=
  { s.drew with
    rlc.welcomed := (s.rlc.welcomed.filter fun w => w.1 != n) ++ [(n, pattern)],
    rlc.welcomeDelays :=
      s.rlc.welcomeDelays ++ [{ due := s.now + s.drawn % 51, pattern := pattern, joiner := n }] }

/-- The answer to a JOIN (R8, R10): in RUNNING and PARKED a WELCOME and a PROFILE, in RESUMING a PROFILE alone. -/
def answerJoin (s : State) (n pattern : Nat) : State :=
  if answered s n pattern then s
  else
    match s.rlc.nodeState with
    | .running => delayProfile (delayWelcome s n pattern)
    | .parked => delayProfile (delayWelcome s n pattern)
    | .resuming => delayProfile s
    | _ => s

/-- The join check on a WELCOME (R18). -/
def confirmJoin (s : State) (pattern joiner : Nat) : State :=
  if s.rlc.nodeState = .joining ∧ s.rlc.pattern = some pattern ∧ s.rlc.craneNo = some joiner then
    { s with rlc.joinConfirmed := true }
  else s

/-! ## The commands -/

/-- RUNWAY_FRAME_BAD: bytes that are no frame are discarded and counted (R5, R219). -/
def execRunwayFrameBad (bytes : List Byte) (s : State) : Answer :=
  .next (if s.rlc.nodeState ≠ .reset ∧ Codec.decode bytes = none then countBad s else s)

/-- RX_JOIN (R6, R31 to R33, R10). -/
def execRxJoin (n serial pattern : Nat) (x : Int) (s : State) : Answer :=
  .next (State.finish (receive s { sender := n, serial := serial, body := .join pattern x } fun s =>
    answerJoin (takeJoin s n serial pattern x) n pattern))

/-- RX_WELCOME (R6, R18, R38). -/
def execRxWelcome (n serial pattern joiner : Nat) (s : State) : Answer :=
  .next (State.finish (receive s { sender := n, serial := serial, body := .welcome pattern joiner } fun s =>
    confirmJoin (hearKnown s n serial) pattern joiner))

/-- RX_BEACON (R6, R31, R33, R34, R44). -/
def execRxBeacon (n serial : Nat) (b : Beacon) (s : State) : Answer :=
  .next (State.finish (receive s { sender := n, serial := serial, body := .beacon b } fun s =>
    takeBeacon s n serial b))

/-- RX_PROFILE (R6, R31, R33, R35). -/
def execRxProfile (n serial : Nat) (p : Profile) (s : State) : Answer :=
  .next (State.finish (receive s { sender := n, serial := serial, body := .profile p } fun s =>
    takeProfile s n serial p))

/-- RX_CLAIM (R6, R40). -/
def execRxClaim (n serial : Nat) (t : Target) (prio : Nat) (s : State) : Answer :=
  .next (State.finish (receive s { sender := n, serial := serial, body := .claim t prio } fun s =>
    takeClaim s n serial t prio))

/-- RX_RELEASE (R6, R40). -/
def execRxRelease (n serial : Nat) (t : Target) (s : State) : Answer :=
  .next (State.finish (receive s { sender := n, serial := serial, body := .release t } fun s =>
    takeRelease s n serial t))

/-- RX_NOTICE (R6, R38, R43): ignored by the SMU in CONFIG. -/
def execRxNotice (n serial : Nat) (k : Notice) (s : State) : Answer :=
  .next (State.finish (receive s { sender := n, serial := serial, body := .notice k } fun s =>
    let s := hearKnown s n serial
    if s.rlc.nodeState = .config then s else takeNotice s n serial k))

/-- RX_TRUCK_STATE (R6, R38, R41, R163): ignored by the TBU in CONFIG. -/
def execRxTruckState (n serial bay version : Nat) (c : TruckContent) (s : State) : Answer :=
  .next (State.finish (receive s { sender := n, serial := serial, body := .truckState bay version c } fun s =>
    let s := hearKnown s n serial
    if s.rlc.nodeState = .config then s
    else takeTruckState (offerVersion s n serial bay version) n bay version c))

end Sys2Proof.Machine
end

