-- ==== Sys2Proof/Machine/Requests.lean ====
section
/-! DEFINITION. The requests other than the reads: one command for each, taken from the request buffer (9.2). -/

namespace Sys2Proof.Machine

/-- A request command whose hand-ons are served before it ends. -/
def State.request (s : State) (k : ReqKind) (serve : State → ReqTag → Request → State) : Answer :=
  .next (State.finish (takeRequest s k serve))

/-! ## Image (R214 to R216) -/

/-- CONFIGURE served (R214). -/
def serveConfigure (s : State) (tag : ReqTag) (r : Request) : State :=
  match r with
  | .configure es =>
    (match configFail es with
      | some why => answer s tag r .badArg why .none
      | none =>
        let s := answer s tag r .ok .none (.count es.length)
        { s with cpt.draft := applyEntries s.cpt.draft es })
  | _ => s

/-- CONFIGURE (R214). -/
def execConfigure (s : State) : Answer := s.request .configure serveConfigure

/-- START served (R17, R215, R216). -/
def serveStart (s : State) (tag : ReqTag) (r : Request) : State :=
  match imageFail s.cpt.draft with
  | some (p, c) => answer s tag r .refused (.badImage p c) .none
  | none => enterJoining (takeImage (answer s tag r .ok .none .none) (buildImage s.cpt.draft))

/-- START (R215). -/
def execStart (s : State) : Answer := s.request .start serveStart

/-! ## Node state (R21, R23, R25) -/

/-- RESTART (R25): answered OK, then the soft reset, with the straps as they read. -/
def execRestart (t : Straps) (s : State) : Answer :=
  s.request .restart fun s tag r => softReset (answer s tag r .ok .none .none) t

/-- PARK served (R21). -/
def servePark (s : State) (tag : ReqTag) (r : Request) : State :=
  if s.moc.active.isSome then answer s tag r .refused .orderActive .none
  else if s.wgu.loadClass ≠ .empty then answer s tag r .refused .loadNotEmpty .none
  else enterParked (answer s tag r .ok .none .none)

/-- PARK (R21). -/
def execPark (s : State) : Answer := s.request .park servePark

/-- UNPARK served (R23). -/
def serveUnpark (s : State) (tag : ReqTag) (r : Request) : State := enterResuming (answer s tag r .ok .none .none)

/-- UNPARK (R23). -/
def execUnpark (s : State) : Answer := s.request .unpark serveUnpark

/-! ## Orders (R175, R187, R194) -/

/-- SUBMIT_ORDER (R175). -/
def execSubmitOrder (s : State) : Answer :=
  s.request .submitOrder fun s tag r => match r with
    | .submitOrder o => serveSubmit s tag r o
    | _ => s

/-- CANCEL_ORDER (R194). -/
def execCancelOrder (s : State) : Answer :=
  s.request .cancelOrder fun s tag r => match r with
    | .cancelOrder id => serveCancel s tag r id
    | _ => s

/-- REDIRECT (R187). -/
def execRedirect (s : State) : Answer :=
  s.request .redirect fun s tag r => match r with
    | .redirect id d => serveRedirect s tag r id d
    | _ => s

/-! ## Trucks (R156) -/

/-- TRUCK_ARRIVE (R156). -/
def execTruckArrive (s : State) : Answer :=
  s.request .truckArrive fun s tag r => match r with
    | .truckArrive bay d => serveTruck s tag r bay (.arrive d)
    | _ => s

/-- TRUCK_READY (R156). -/
def execTruckReady (s : State) : Answer :=
  s.request .truckReady fun s tag r => match r with
    | .truckReady bay => serveTruck s tag r bay .ready
    | _ => s

/-- TRUCK_HOLD (R156). -/
def execTruckHold (s : State) : Answer :=
  s.request .truckHold fun s tag r => match r with
    | .truckHold bay => serveTruck s tag r bay .hold
    | _ => s

/-- TRUCK_DEPART (R156). -/
def execTruckDepart (s : State) : Answer :=
  s.request .truckDepart fun s tag r => match r with
    | .truckDepart bay => serveTruck s tag r bay .depart
    | _ => s

/-! ## Slot map (R103, R104) -/

/-- A MAP_LOAD gives coil fields with a content that has none (R103). -/
def coilMisplaced (c : Content) (coil : Coil) : Bool := c != .occupied && coil != {}

/-- MAP_LOAD served (R103). -/
def serveMapLoad (s : State) (tag : ReqTag) (r : Request) (slot : Nat) (content : Option Content) (coil : Coil) : State :=
  match s.cpt.image, slotRec s.smu slot, content with
  | some img, some rec, some c =>
    if coilMisplaced c coil || !coilInRange img coil then answer s tag r .badArg .argument .none
    else if rec.blocked then answer s tag r .ok .ignoredBlocked .none
    else
      changeByRequest (answer s tag r .ok .none .none) img slot
        { rec with content := c, coil := coil, disputed := false, source := some .mapLoad } (.source .mapLoad)
  | _, _, _ => answer s tag r .badArg .argument .none

/-- MAP_LOAD (R103). -/
def execMapLoad (s : State) : Answer :=
  s.request .mapLoad fun s tag r => match r with
    | .mapLoad slot content coil => serveMapLoad s tag r slot content coil
    | _ => s

/-- SLOT_BLOCK and SLOT_UNBLOCK served (R104): the flag set to `on`, with a NOTICE where it was not so already. -/
def serveBlock (s : State) (tag : ReqTag) (r : Request) (slot : Nat) (on : Bool) : State :=
  match s.cpt.image, slotRec s.smu slot with
  | some img, some rec =>
    let s := answer s tag r .ok .none .none
    if rec.blocked = on then s
    else changeOwn s img slot { rec with blocked := on } .block (if on then .setBlock else .clearBlock) {}
  | _, _ => answer s tag r .badArg .argument .none

/-- SLOT_BLOCK (R104). -/
def execSlotBlock (s : State) : Answer :=
  s.request .slotBlock fun s tag r => match r with
    | .slotBlock slot => serveBlock s tag r slot true
    | _ => s

/-- SLOT_UNBLOCK (R104). -/
def execSlotUnblock (s : State) : Answer :=
  s.request .slotUnblock fun s tag r => match r with
    | .slotUnblock slot => serveBlock s tag r slot false
    | _ => s

/-! ## Claims (R89) -/

/-- CLAIM_FORCE_CLEAR served (R89). -/
def serveForceClear (s : State) (tag : ReqTag) (r : Request) (n : Nat) : State :=
  if ¬(1 ≤ n ∧ n ≤ 8) ∨ s.rlc.craneNo = some n then answer s tag r .badArg .argument .none
  else
    match peerAt s.ptb n with
    | none => answer s tag r .refused .noPeer .none
    | some p =>
      if p.liveness = .lost then forceClear (answer s tag r .ok .none .none) p
      else answer s tag r .refused .peerNotLost .none

/-- CLAIM_FORCE_CLEAR (R89). -/
def execClaimForceClear (s : State) : Answer :=
  s.request .claimForceClear fun s tag r => match r with
    | .claimForceClear n => serveForceClear s tag r n
    | _ => s

/-! ## Weighing (R148, R149) -/

/-- A session is a SPAN session. -/
def spanOpen (w : Wgu) : Bool :=
  match w.session with
  | none => false
  | some ss => !isOrder ss

/-- The hook is not known to be still (R148, R149). -/
def hookMoving (s : State) : Bool := s.sampleStale || decide (20 ≤ mag s.sample.vz)

/-- WEIGH_VERIFY_ZERO served (R148). -/
def serveVerifyZero (s : State) (tag : ReqTag) (r : Request) : State :=
  if cellLost s.wgu then answer s tag r .badState .none .none
  else if s.wgu.capture.isSome || spanOpen s.wgu then answer s tag r .busy .none .none
  else if s.moc.active.isSome then answer s tag r .refused .orderActive .none
  else if hookMoving s then answer s tag r .refused .hookMoving .none
  else if s.sample.grip ≠ .opened ∨ s.wgu.loadClass ≠ .empty then answer s tag r .refused .hookNotEmpty .none
  else testCapture (beginCapture (answer s tag r .accepted .none .none) .verify)

/-- WEIGH_VERIFY_ZERO (R148). -/
def execWeighVerifyZero (s : State) : Answer := s.request .weighVerifyZero serveVerifyZero

/-- A test mass in range and a whole multiple of the division (R149). -/
def massOk (img : Image) (mass : Nat) : Bool :=
  decide (1000 ≤ mass ∧ mass ≤ 99990) && (mass : Int) % img.division == 0

/-- A SPAN session opened, counting (R149). -/
def openSpan (s : State) (mass : Nat) : State :=
  let opened : Session :=
    { kind := .span mass, openedAt := s.now, window := [], counting := true, atLiftOff := false }
  { s with wgu.session := some opened }

/-- WEIGH_VERIFY_SPAN served (R149). -/
def serveVerifySpan (s : State) (tag : ReqTag) (r : Request) (img : Image) (mass : Nat) : State :=
  if !massOk img mass then answer s tag r .badArg .argument .none
  else if s.wgu.capture.isSome || spanOpen s.wgu then answer s tag r .busy .none .none
  else if s.wgu.base ≠ .verifyZeroDone then answer s tag r .badState .none .none
  else if s.moc.active.isSome then answer s tag r .refused .orderActive .none
  else if hookMoving s then answer s tag r .refused .hookMoving .none
  else openSpan (answer s tag r .accepted .none .none) mass

/-- WEIGH_VERIFY_SPAN (R149). -/
def execWeighVerifySpan (s : State) : Answer :=
  s.request .weighVerifySpan fun s tag r => match r, s.cpt.image with
    | .weighVerifySpan mass, some img => serveVerifySpan s tag r img mass
    | _, _ => answer s tag r .badArg .argument .none

end Sys2Proof.Machine
end

