-- ==== Sys2Proof/Machine/Samples.lean ====
section
/-! DEFINITION. Samples: load cell samples and bad words (R126), position samples (R206 to R210). -/

namespace Sys2Proof.Machine

/-! ## Load cell -/

/-- LOAD_CELL_BAD_WORD: discarded and counted in LC_BAD (R126). -/
def execLoadCellBadWord (s : State) : Answer :=
  .next (if s.rlc.nodeState = .reset then s else { s with lcp.bad := satAdd s.lcp.bad 1 })

/-- The net of a load sample that arrives now, none where it is DYNAMIC (R129, R130). -/
def sampleNet (s : State) (img : Image) (raw : Int) : Option Int :=
  if isDynamic s then none else some (netOf img s.wgu.zero s.sample.az raw)

/-- A good load sample (R126): kept, the loss ended, then with an image converted, fed to the WGU and watched by the
MOC. -/
def takeLoad (s : State) (raw : Int) (saturated : Bool) : State :=
  let s := findCell (keepRaw s raw saturated)
  match s.cpt.image with
  | none => s
  | some img =>
    let net := sampleNet s img raw
    landingWatch (weighSample s img raw saturated net) net

/-- LOAD_CELL_SAMPLE (R126 to R136, R190, R191). -/
def execLoadCellSample (raw : Int) (saturated : Bool) (s : State) : Answer :=
  .next (State.finish (if s.rlc.nodeState = .reset then s else takeLoad s raw saturated))

/-! ## Position -/

/-- The runway length that x is clamped to: that of the image, or 250,000 (R207). -/
def xLimit (c : Cpt) : Int :=
  match c.image with
  | none => 250000
  | some img => img.runway

/-- The span length that y is clamped to: that of the image, or 60,000 (R207). -/
def yLimit (c : Cpt) : Int :=
  match c.image with
  | none => 60000
  | some img => img.span

/-- The held sample that a frame gives, each field clamped into its taken range (R206, R207). -/
def clampSample (c : Cpt) (f : PositionFrame) (g : Grip) : Sample :=
  { x := clamp 0 (xLimit c) f.x, y := clamp 0 (yLimit c) f.y, z := clamp 0 30000 f.z,
    vx := clamp (-4000) 4000 f.vx, vy := clamp (-4000) 4000 f.vy, vz := clamp (-4000) 4000 f.vz,
    az := clamp (-10000) 10000 f.az, grip := g, seq := f.seq }

/-- The fields of a frame that needed a clamp (R207). -/
def clampedFields (f : PositionFrame) (p : Sample) : List SampleField :=
  (if f.x = p.x then [] else [.x]) ++ (if f.y = p.y then [] else [.y]) ++ (if f.z = p.z then [] else [.z])
    ++ (if f.vx = p.vx then [] else [.vx]) ++ (if f.vy = p.vy then [] else [.vy]) ++ (if f.vz = p.vz then [] else [.vz])
    ++ (if f.az = p.az then [] else [.az])

/-- The distance of a sample sequence ahead of the last taken (R208). -/
def seqAhead (last q : Nat) : Nat := (q + 65536 - last) % 65536

/-- OUT_OF_FIELD at the start of an excursion, and the excursion mark (R207). -/
def noteExcursion (s : State) (fields : List SampleField) : State :=
  let s := if fields ≠ [] ∧ s.cpt.excursion = false then s.emit (.outOfField fields) else s
  { s with cpt.excursion := decide (fields ≠ []) }

/-- POSITION_BACK at the end of a staleness that followed a taken sample (R210). -/
def noteBack (s : State) : State :=
  if s.cpt.held.isSome && s.sampleStale then s.emit (.positionBack (min 65535 (s.now - s.cpt.takenAt))) else s

/-- The held sample replaced whole (R209). -/
def holdSample (s : State) (p : Sample) (q : Nat) : State :=
  { s with cpt.held := some p, cpt.takenAt := s.now, cpt.staleTold := false, cpt.sampleSeq := some q }

/-- A taken sample handed on (R209; the order of the blocks is log entry 10). -/
def handSample (s : State) : State := resettleZones (ordersSample (weighPosition s.compute))

/-- A taken sample (R207, R209, R210). -/
def takeSample (s : State) (f : PositionFrame) (g : Grip) : State :=
  let p := clampSample s.cpt f g
  handSample (holdSample (noteBack (noteExcursion s (clampedFields f p))) p f.seq)

/-- A usable sample by its sequence: taken, taken with a skip counted, or discarded and counted (R208). -/
def judgeSample (s : State) (f : PositionFrame) (g : Grip) : State :=
  match s.cpt.sampleSeq with
  | none => takeSample s f g
  | some last =>
    let d := seqAhead last f.seq
    if d = 0 ∨ 32768 ≤ d then { s with cpt.old := satAdd s.cpt.old 1 }
    else takeSample { s with cpt.skipped := satAdd s.cpt.skipped (d - 1) } f g

/-- A POSITION frame of the right length (R207): usable where its grip state code is one, else discarded and counted. -/
def usePosition (s : State) (f : PositionFrame) : State :=
  match Codec.gripOf f.gripCode with
  | none => countBadFrame s
  | some g => judgeSample s f g

/-- A received POSITION frame (R199): a wrong CRC or length counted in CP_BAD. A frame of another kind comes by
CP_FRAME_RECEIVED (log entry 2). -/
def readPosition (s : State) (bytes : List Byte) : State :=
  match Codec.openPort bytes with
  | none => countBadFrame s
  | some h =>
    if h.kind ≠ 32 then s
    else
      match Codec.positionOf h with
      | none => countBadFrame s
      | some f => usePosition s f

/-- POSITION_SAMPLE (R199, R206 to R210). -/
def execPositionSample (bytes : List Byte) (s : State) : Answer :=
  .next (State.finish (if s.rlc.nodeState = .reset then s else readPosition s bytes))

end Sys2Proof.Machine
end

