-- ==== Sys2Proof/Machine/Timers.lean ====
section
/-! DEFINITION. The timers running out. Each command acts only where its timer runs, and moves the clock on to the
moment at which the timer runs out (log entries 1 and 2). -/

namespace Sys2Proof.Machine

/-! ## Schedules of the line (R7 to R10, R18, R23, R4) -/

/-- The node states in which BEACONs and PROFILEs go out (R7, R8). -/
def sendsBeacons (st : NodeState) : Bool :=
  match st with
  | .running => true
  | .resuming => true
  | .parked => true
  | .fault => true
  | .reset => false
  | .config => false
  | .joining => false

/-- BEACON_TIMER_EXPIRY (R7, R12, R13). -/
def execBeaconTimerExpiry (s : State) : Answer :=
  .next (match s.rlc.beaconDue with
    | none => s
    | some t => if sendsBeacons s.rlc.nodeState then State.queueBeacon (s.reach t) else s)

/-- PROFILE_TIMER_EXPIRY (R8). -/
def execProfileTimerExpiry (s : State) : Answer :=
  .next (match s.rlc.profileDue with
    | none => s
    | some t => if sendsBeacons s.rlc.nodeState then State.queueProfile (s.reach t) else s)

/-- The earliest of some moments. -/
def earliest : List Nat → Option Nat
  | [] => none
  | t :: ts =>
    match earliest ts with
    | none => some t
    | some u => some (min t u)

/-- PROFILE_DELAY_EXPIRY: the PROFILE that a JOIN asked for (R8; log entry 14). -/
def execProfileDelayExpiry (s : State) : Answer :=
  .next (match earliest s.rlc.profileDelays with
    | none => s
    | some t =>
      let u := State.reach { s with rlc.profileDelays := s.rlc.profileDelays.erase t } t
      if sendsBeacons s.rlc.nodeState then u.queueProfile else u)

/-- A WELCOME goes out in RUNNING and PARKED (R10). -/
def sendsWelcome (st : NodeState) : Bool := st == .running || st == .parked

/-- WELCOME_DELAY_EXPIRY: the WELCOME that a JOIN asked for (R10; log entry 14). -/
def execWelcomeDelayExpiry (s : State) : Answer :=
  .next (match earliest (s.rlc.welcomeDelays.map (·.due)) with
    | none => s
    | some t =>
      match s.rlc.welcomeDelays.find? fun w => w.due == t with
      | none => s
      | some w =>
        let u := State.reach { s with rlc.welcomeDelays := s.rlc.welcomeDelays.erase w } t
        if sendsWelcome s.rlc.nodeState then u.offer (.fixed (.welcome w.pattern w.joiner)) else u)

/-- A further JOIN queued, and the next due 200 ms after this one (R18). -/
def repeatJoin (s : State) : State :=
  State.offer { s with rlc.joinDue := some (s.now + 200) } (.fixed (joinBody s))

/-- JOIN_REPEAT_EXPIRY (R18). -/
def execJoinRepeatExpiry (s : State) : Answer :=
  .next (match s.rlc.joinDue with
    | none => s
    | some t => if s.rlc.nodeState = .joining then repeatJoin (s.reach t) else s)

/-- JOIN_TIMER_EXPIRY: RUNNING from JOINING (R18). -/
def execJoinTimerExpiry (s : State) : Answer :=
  .next (State.finish (match s.rlc.joinEnd with
    | none => s
    | some t => if s.rlc.nodeState = .joining then enterRunning (s.reach t) else s))

/-- RESUME_TIMER_EXPIRY: RUNNING from RESUMING (R23). -/
def execResumeTimerExpiry (s : State) : Answer :=
  .next (State.finish (match s.rlc.resumeEnd with
    | none => s
    | some t => if s.rlc.nodeState = .resuming then resumeRunning (s.reach t) else s))

/-- LINE_TX_FAIL (R4). -/
def execLineTxFail (s : State) : Answer :=
  .next (if watchesTx s.rlc && !s.rlc.txFail then
    State.emit { s.reach (s.rlc.txSince + 1000) with rlc.txFail := true } .lineTxFail
  else s)

/-! ## Peers, claims, permits and trucks (R38, R82, R70, R160) -/

/-- PEER_STALE: a LIVE peer silent for more than its STALE limit (R38). -/
def execPeerStale (n : Nat) (s : State) : Answer :=
  .next (State.finish (match peerAt s.ptb n with
    | none => s
    | some p =>
      if s.rlc.nodeState ≠ .reset ∧ p.liveness = .live then
        changeLiveness (s.reach (p.heard + staleLimit p + 1)) p .stale (.peerStale n)
      else s))

/-- PEER_LOST: a STALE peer silent for more than its LOST limit (R38). -/
def execPeerLost (n : Nat) (s : State) : Answer :=
  .next (State.finish (match peerAt s.ptb n with
    | none => s
    | some p =>
      if s.rlc.nodeState ≠ .reset ∧ p.liveness = .stale then
        changeLiveness (s.reach (p.heard + lostLimit p + 1)) p .lost (.peerLost n)
      else s))

/-- SETTLE_TIMER_EXPIRY: an ASKING entry becomes HELD 300 ms after its last ask (R82). -/
def execSettleTimerExpiry (t : Target) (s : State) : Answer :=
  .next (State.finish (match findClaim s t with
    | none => s
    | some c =>
      if s.rlc.nodeState = .running ∧ c.state = .asking then settleClaim (s.reach (c.askedAt + 300)) c else s))

/-- REFRESH_TIMER_EXPIRY: a computation 50 ms after the last (R70). -/
def execRefreshTimerExpiry (s : State) : Answer :=
  .next (State.compute (if s.rlc.nodeState = .reset then s else s.reach (s.epu.computedAt + 50)))

/-- REQUEST_TIMER_EXPIRY: a truck request ends 5,000 ms after its acceptance (R160). -/
def execRequestTimerExpiry (bay : Nat) (s : State) : Answer :=
  .next (State.finish (if 1 ≤ bay ∧ bay ≤ 4 then
    (match s.tbu.requests.get bay with
      | none => s
      | some q => timeoutTruckReq (s.reach (q.acceptedAt + 5000)) bay q)
  else s))

/-! ## Weighing (R137, R146, R127) -/

/-- SESSION_TIMEOUT: an open session ends 8,000 ms after its opening (R137). -/
def execSessionTimeout (s : State) : Answer :=
  .next (State.finish (match s.wgu.session, s.cpt.image with
    | some ss, some img => timeoutSession (s.reach (ss.openedAt + 8000)) img ss
    | _, _ => s))

/-- CAPTURE_TIMER_EXPIRY: a capture completes 3,000 ms after its beginning (R146, R148). -/
def execCaptureTimerExpiry (s : State) : Answer :=
  .next (State.finish (match s.wgu.capture, s.cpt.image with
    | some c, some img => completeCapture (s.reach (c.startedAt + 3000)) img c
    | _, _ => s))

/-- LOAD_CELL_LOST: no good sample for 50 ms (R127). -/
def execLoadCellLost (s : State) : Answer :=
  .next (State.finish (if s.rlc.nodeState ≠ .reset ∧ cellLost s.wgu = false then
    loseCell (s.reach (s.lcp.since + 50)) else s))

/-! ## Own sample and orders (R210, R196) -/

/-- The own sample stale: reported, and handed to the EPU and the WGU (R210). -/
def goStale (s : State) : State :=
  weighStale (State.compute (State.emit { s with cpt.staleTold := true } .positionStale))

/-- POSITION_STALE: 100 ms without a taken sample (R210). -/
def execPositionStale (s : State) : Answer :=
  .next (State.finish (if s.cpt.held.isSome && !s.cpt.staleTold && s.rlc.nodeState != .reset then
    goStale (s.reach (s.cpt.takenAt + 100)) else s))

/-- ORDER_WAITING reported, once for each entry to the phase (R196). -/
def tellWaiting (s : State) (a : Active) : State :=
  State.emit (setActive s fun a => { a with waitTold := true }) (.orderWaiting a.ord.id a.phase (waitCause s a))

/-- ORDER_WAITING: a phase other than HOLD_LOAD has lasted 10,000 ms (R196). -/
def execOrderWaiting (s : State) : Answer :=
  .next (match s.moc.active with
    | none => s
    | some a =>
      if a.phase ≠ .holdLoad ∧ a.waitTold = false then tellWaiting (s.reach (a.phaseAt + 10000)) a else s)

end Sys2Proof.Machine
end

