-- ==== Sys2Proof/Machine/Dispatch.lean ====
section
/-! DEFINITION. exec: the meaning of each command, one arm for each constructor of Instr. -/

namespace Sys2Proof.Machine

def exec (i : Instr) (s : State) : Host.Outcome State Fault Refusal :=
  match i with
  | .powerOn => Sys2Proof.Machine.execPowerOn s
  | .resetPinAssert => Sys2Proof.Machine.execResetPinAssert s
  | .resetRelease straps => Sys2Proof.Machine.execResetRelease straps s
  | .lineBusy => Sys2Proof.Machine.execLineBusy s
  | .lineIdle => Sys2Proof.Machine.execLineIdle s
  | .txWaitExpiry => Sys2Proof.Machine.execTxWaitExpiry s
  | .txBitMismatch => Sys2Proof.Machine.execTxBitMismatch s
  | .txFrameEnd => Sys2Proof.Machine.execTxFrameEnd s
  | .runwayFrameBad bytes => Sys2Proof.Machine.execRunwayFrameBad bytes s
  | .rxJoin n serial pattern x => Sys2Proof.Machine.execRxJoin n serial pattern x s
  | .rxWelcome n serial pattern joiner => Sys2Proof.Machine.execRxWelcome n serial pattern joiner s
  | .rxBeacon n serial b => Sys2Proof.Machine.execRxBeacon n serial b s
  | .rxProfile n serial p => Sys2Proof.Machine.execRxProfile n serial p s
  | .rxClaim n serial target prio => Sys2Proof.Machine.execRxClaim n serial target prio s
  | .rxRelease n serial target => Sys2Proof.Machine.execRxRelease n serial target s
  | .rxNotice n serial notice => Sys2Proof.Machine.execRxNotice n serial notice s
  | .rxTruckState n serial bay version content => Sys2Proof.Machine.execRxTruckState n serial bay version content s
  | .beaconTimerExpiry => Sys2Proof.Machine.execBeaconTimerExpiry s
  | .profileTimerExpiry => Sys2Proof.Machine.execProfileTimerExpiry s
  | .profileDelayExpiry => Sys2Proof.Machine.execProfileDelayExpiry s
  | .welcomeDelayExpiry => Sys2Proof.Machine.execWelcomeDelayExpiry s
  | .joinRepeatExpiry => Sys2Proof.Machine.execJoinRepeatExpiry s
  | .joinTimerExpiry => Sys2Proof.Machine.execJoinTimerExpiry s
  | .resumeTimerExpiry => Sys2Proof.Machine.execResumeTimerExpiry s
  | .lineTxFail => Sys2Proof.Machine.execLineTxFail s
  | .peerStale n => Sys2Proof.Machine.execPeerStale n s
  | .peerLost n => Sys2Proof.Machine.execPeerLost n s
  | .settleTimerExpiry target => Sys2Proof.Machine.execSettleTimerExpiry target s
  | .refreshTimerExpiry => Sys2Proof.Machine.execRefreshTimerExpiry s
  | .requestTimerExpiry bay => Sys2Proof.Machine.execRequestTimerExpiry bay s
  | .sessionTimeout => Sys2Proof.Machine.execSessionTimeout s
  | .captureTimerExpiry => Sys2Proof.Machine.execCaptureTimerExpiry s
  | .loadCellLost => Sys2Proof.Machine.execLoadCellLost s
  | .positionStale => Sys2Proof.Machine.execPositionStale s
  | .orderWaiting => Sys2Proof.Machine.execOrderWaiting s
  | .loadCellSample raw saturated => Sys2Proof.Machine.execLoadCellSample raw saturated s
  | .loadCellBadWord => Sys2Proof.Machine.execLoadCellBadWord s
  | .cpFrameReceived f => Sys2Proof.Machine.execCpFrameReceived f s
  | .positionSample f => Sys2Proof.Machine.execPositionSample f s
  | .unknownRequestTaken => Sys2Proof.Machine.execUnknownRequestTaken s
  | .configure => Sys2Proof.Machine.execConfigure s
  | .start => Sys2Proof.Machine.execStart s
  | .restart straps => Sys2Proof.Machine.execRestart straps s
  | .park => Sys2Proof.Machine.execPark s
  | .unpark => Sys2Proof.Machine.execUnpark s
  | .submitOrder => Sys2Proof.Machine.execSubmitOrder s
  | .cancelOrder => Sys2Proof.Machine.execCancelOrder s
  | .redirect => Sys2Proof.Machine.execRedirect s
  | .truckArrive => Sys2Proof.Machine.execTruckArrive s
  | .truckReady => Sys2Proof.Machine.execTruckReady s
  | .truckHold => Sys2Proof.Machine.execTruckHold s
  | .truckDepart => Sys2Proof.Machine.execTruckDepart s
  | .mapLoad => Sys2Proof.Machine.execMapLoad s
  | .slotBlock => Sys2Proof.Machine.execSlotBlock s
  | .slotUnblock => Sys2Proof.Machine.execSlotUnblock s
  | .claimForceClear => Sys2Proof.Machine.execClaimForceClear s
  | .weighVerifyZero => Sys2Proof.Machine.execWeighVerifyZero s
  | .weighVerifySpan => Sys2Proof.Machine.execWeighVerifySpan s
  | .readStatus => Sys2Proof.Machine.execReadStatus s
  | .readSlot => Sys2Proof.Machine.execReadSlot s
  | .readSlots => Sys2Proof.Machine.execReadSlots s
  | .readPeer => Sys2Proof.Machine.execReadPeer s
  | .readTruck => Sys2Proof.Machine.execReadTruck s
  | .readOrder => Sys2Proof.Machine.execReadOrder s
  | .slotStreamRecord => Sys2Proof.Machine.execSlotStreamRecord s
  | .outputRecordSent => Sys2Proof.Machine.execOutputRecordSent s

end Sys2Proof.Machine
end

