-- ==== Sys2Proof/Safety.lean ====
section
/-! DEFINITION. What counts as a safe state of the node, in the terms the statements use: the capacities that the spec
gives its lists, the sums law of the truck records, the permits of a node that may not move, and the responses that wait. -/

namespace Sys2Proof.Machine

/-- The response a record carries, where it is one. -/
def responseOf (b : OutBody) : Option Response :=
  match b with
  | .response r => some r
  | _ => none

/-- The responses that wait in the output queue, oldest first. -/
def responses (c : Cpt) : List Response := c.out.filterMap fun r => responseOf r.body

/-- The slot stream records that wait in the output queue, oldest first. -/
def streams (c : Cpt) : List OutBody := (c.out.map (·.body)).filter isStream

/-- What serving hand-ons leaves as it was, between the state `s` in which a command stops and the state `t` in which its
hand-ons are served: the clock, the peer records, the load cell, the waiting commands; of the RLC all but the transmit
queue with its line access, TX_DROPPED and the TRUCK_STATE windows; the slot map and the notice tracking; of weighing all
but the session, which can only be closed, and only where it is an order's; of the CPT all but waiting events, PERMITs
and TARGETs and the counts of lost events. -/
def HandOnFrame (s t : State) : Prop :=
  t.serial = s.serial ∧ t.now = s.now ∧ t.ptb = s.ptb ∧ t.smu = s.smu ∧ t.lcp = s.lcp ∧ t.pending = s.pending
    ∧ t.rlc = { s.rlc with queue := t.rlc.queue, access := t.rlc.access, attempts := t.rlc.attempts,
                           wire := t.rlc.wire, txDropped := t.rlc.txDropped, truckWin := t.rlc.truckWin }
    ∧ t.wgu = { s.wgu with session := t.wgu.session }
    ∧ (t.wgu.session = s.wgu.session
        ∨ t.wgu.session = none ∧ ∃ ss, s.wgu.session = some ss ∧ isOrder ss = true)
    ∧ t.cpt = { s.cpt with out := t.cpt.out, lost := t.cpt.lost, dropped := t.cpt.dropped }
    ∧ responses t.cpt = responses s.cpt ∧ streams t.cpt = streams s.cpt

/-- The output queue within its limits: 8 responses, one PERMIT, one TARGET, 8 stream records, 48 events (R203, R204). -/
def OutputOk (c : Cpt) : Prop :=
  waitingOut isResponse c.out ≤ 8 ∧ waitingOut isPermit c.out ≤ 1 ∧ waitingOut isTarget c.out ≤ 1
    ∧ waitingOut isStream c.out ≤ 8 ∧ waitingOut isEvent c.out ≤ 48

/-- At most 6 own claims, and never the same target twice (R77). -/
def ClaimsOk (c : Clu) : Prop := c.claims.length ≤ 6 ∧ (c.claims.map (·.target)).Nodup

/-- At most 8 orders in the queue, the active one among them; at most 4 ended records; at most 8 slots excluded (R174,
R176, R198). -/
def OrdersOk (m : Moc) : Prop :=
  (queueIds m).length ≤ 8 ∧ m.ended.length ≤ 4 ∧ ∀ a, m.active = some a → a.excluded.length ≤ 8

/-- At most 16 nets in the class window and in the window of a session, and an overload count of 0 to 8 (R131, R135). -/
def WeighOk (w : Wgu) : Prop :=
  w.window.length ≤ 16 ∧ w.overCount ≤ 8 ∧ ∀ ss, w.session = some ss → ss.window.length ≤ 16

/-- The sums law of a record: the cumulative weight is the sum over its LOADED positions and within the allowance, and
each group load is the sum of its increments and within that group's limit (R152). -/
def SumsOk (c : TruckContent) : Prop :=
  match c with
  | .noTruck => True
  | .present _ d cumulative loads =>
    cumulative = cumulativeOf d.positions ∧ cumulative ≤ d.allowance ∧ loads = groupLoads d
      ∧ ∀ g, g < d.limits.length → loads.getD g 0 ≤ d.limits.getD g 0

/-- Every truck record keeps the sums law (R152). -/
def TrucksOk (t : Tbu) : Prop := ∀ bay, SumsOk (t.trucks.get bay).content

/-- The records by rising crane number, so that no number has two, at most 7 of them, none of the own number, and each
with at most 6 claims; in RESET there is none (R28, R29). -/
def PeersOk (s : State) : Prop :=
  s.ptb.peers.length ≤ 7 ∧ s.ptb.peers.Pairwise (fun p q => p.n < q.n)
    ∧ (∀ p ∈ s.ptb.peers, s.rlc.craneNo ≠ some p.n ∧ p.claims.length ≤ 6)
    ∧ (s.rlc.nodeState = .reset → s.ptb.peers = [])

/-- At most 16 frames in the transmit queue, 8 notices in their repeat windows, 4 frames in the request buffer (R1, R12,
R200). -/
def BuffersOk (s : State) : Prop :=
  s.rlc.queue.length ≤ 16 ∧ s.rlc.notices.length ≤ 8 ∧ s.cpt.reqBuf.length ≤ 4

/-- While the node state is not RUNNING all six permits are 0 with cause STATE (R68). -/
def PermitsOk (s : State) : Prop := s.rlc.nodeState ≠ .running → s.epu.record.permits = zeroPermits .state

/-- The transitions of the table of section 1.9, each with its event: the command that brings it about, from the node state
`a` to the node state `b`. The straps give the state that RESET and RESTART lead to (R16, R25). -/
def nodeEvent (s : State) (c : Instr) (a b : NodeState) : Prop :=
  match c with
  | .powerOn => b = .reset
  | .resetPinAssert => b = .reset
  | .resetRelease t => a = .reset ∧ b = if strapNumber t = none then .fault else .config
  | .start => a = .config ∧ b = .joining
  | .joinTimerExpiry => a = .joining ∧ b = .running
  | .park => a = .running ∧ b = .parked
  | .unpark => a = .parked ∧ b = .resuming
  | .resumeTimerExpiry => a = .resuming ∧ b = .running
  | .restart t =>
    a ≠ .reset ∧ b = if strapNumber t = none then .fault else if s.cpt.image = none then .config else .joining
  | .rxJoin n serial _ _ => a = .joining ∧ b = .fault ∧ s.rlc.craneNo = some n ∧ serial ≠ s.serial
  | .rxWelcome n serial _ _ => a = .joining ∧ b = .fault ∧ s.rlc.craneNo = some n ∧ serial ≠ s.serial
  | .rxBeacon n serial _ =>
    (a = .joining ∨ a = .running ∨ a = .resuming ∨ a = .parked) ∧ b = .fault ∧ s.rlc.craneNo = some n
      ∧ serial ≠ s.serial
  | _ => False

/-! ## Images and maps -/

/-- At most 40 rows, of at most 12 lower positions each (R97). -/
def RowsFit (img : Image) : Prop := img.rows.length ≤ 40 ∧ ∀ row ∈ img.rows, row.lanes.length ≤ 12

/-- No two zones of the table have the same id (R74). -/
def ZonesDistinct (img : Image) : Prop := (img.zones.map (·.id)).Nodup

/-- No validated image is held in RESET and CONFIG; the slot map has one record for each existing slot of the image held,
by rising id, and none without an image; that image has rows and zones as R97 and R74 count them (R214, R125). -/
def ImageOk (s : State) : Prop :=
  (s.rlc.nodeState = .reset ∨ s.rlc.nodeState = .config → s.cpt.image = none)
    ∧ match s.cpt.image with
      | none => s.smu.slots = []
      | some img => s.smu.slots.map (·.id) = allSlots img ∧ RowsFit img ∧ ZonesDistinct img

/-! ## Tables as the statements write them -/

/-- An answer by the first row that applies of a table of conditions with their answers, and else the last one. -/
def FirstHolds {α : Type} (ans : α) : List (Prop × α) → α → Prop
  | [], other => ans = other
  | row :: rows, other => (row.1 → ans = row.2) ∧ (¬ row.1 → FirstHolds ans rows other)

/-- The code and the number of a limiting cause: its place in the order of R69, which the codes of a PERMIT follow, and the
crane, zone, row or lower slot it names, else 0 (10.3). -/
def causeNumber (c : Cause) : Nat × Nat :=
  match c with
  | .state => (1, 0)
  | .staleSample => (2, 0)
  | .peer n => (3, n)
  | .runwayEnd => (4, 0)
  | .spanEnd => (5, 0)
  | .zone z => (6, z)
  | .noLoad z => (7, z)
  | .row r => (8, r)
  | .column c => (9, c)
  | .zLimit => (10, 0)
  | .overload => (11, 0)
  | .conflict z => (12, z)
  | .ceiling z => (13, z)
  | .contact => (14, 0)
  | .vmax => (15, 0)

/-- Of two causes that tie, the first is the one named (R69). -/
def NamedFirst (a b : Cause) : Prop :=
  (causeNumber a).1 < (causeNumber b).1 ∨ ((causeNumber a).1 = (causeNumber b).1 ∧ (causeNumber a).2 < (causeNumber b).2)

/-! ## The store as the statements name it -/

/-- An existing slot by its row, its tier and its number there (R99). -/
def SlotAt (img : Image) (id r : Nat) (row : Row) (upper : Bool) (p : Nat) : Prop :=
  1 ≤ r ∧ r ≤ 40 ∧ img.rows[r - 1]? = some row ∧ 1 ≤ p ∧ match upper with
    | false => p ≤ 12 ∧ p ≤ row.lanes.length ∧ id = (r - 1) * 23 + p
    | true => p ≤ 11 ∧ p + 1 ≤ row.lanes.length ∧ id = (r - 1) * 23 + 12 + p

/-- Upper slot `u` rests on lower slot `id`: it is upper p - 1 or upper p over lower p (R97). -/
def RestsOn (img : Image) (u id : Nat) : Prop :=
  ∃ r row p k, SlotAt img id r row false p ∧ (k = p ∨ k + 1 = p) ∧ 1 ≤ k ∧ k + 1 ≤ row.lanes.length
    ∧ u = (r - 1) * 23 + 12 + k

/-- A stack stands on a slot in the own map: an upper slot over it is OCCUPIED or UNKNOWN (R114). -/
def StackStands (s : State) (img : Image) (id : Nat) : Prop :=
  ∃ u r, RestsOn img u id ∧ slotRec s.smu u = some r ∧ r.content ≠ .empty

/-! ## Requests as the statements name them -/

/-- The command that takes a request of a kind; RESTART takes the straps as they read. -/
def commandFor (k : ReqKind) (straps : Straps) : Instr :=
  match k with
  | .configure => .configure
  | .start => .start
  | .restart => .restart straps
  | .park => .park
  | .unpark => .unpark
  | .submitOrder => .submitOrder
  | .cancelOrder => .cancelOrder
  | .redirect => .redirect
  | .truckArrive => .truckArrive
  | .truckReady => .truckReady
  | .truckHold => .truckHold
  | .truckDepart => .truckDepart
  | .mapLoad => .mapLoad
  | .slotBlock => .slotBlock
  | .slotUnblock => .slotUnblock
  | .claimForceClear => .claimForceClear
  | .weighVerifyZero => .weighVerifyZero
  | .weighVerifySpan => .weighVerifySpan
  | .readStatus => .readStatus
  | .readSlot => .readSlot
  | .readSlots => .readSlots
  | .readPeer => .readPeer
  | .readTruck => .readTruck
  | .readOrder => .readOrder

/-- A request stands at the head of the request buffer and may be taken: the node is out of RESET and fewer than 8
responses wait (R200). -/
def AtHead (s : State) (tag : ReqTag) (r : Request) : Prop :=
  s.rlc.nodeState ≠ .reset ∧ s.cpt.reqBuf.head? = some (.request tag r) ∧ waitingOut isResponse s.cpt.out < 8

/-- A request that may be taken and does not repeat the last one (R200, R202). -/
def TakesNow (s : State) (tag : ReqTag) (r : Request) : Prop :=
  AtHead s tag r
    ∧ (isRead (reqKind r) = true ∨ ∀ a, s.cpt.lastReq = some a → ¬(a.kind = reqKind r ∧ a.tag = tag))

/-- The response to a request (R201). -/
def responseTo (tag : ReqTag) (r : Request) (st : Status) (why : Reason) (c : RespContent) : Response :=
  { seq := tag.seq, kind := .known (reqKind r), status := st, reason := why, content := c, repeated := false }

/-- A state in which a request has been taken and answered, and nothing else has changed (R200 to R202). -/
def afterAnswer (s : State) (tag : ReqTag) (r : Request) (st : Status) (why : Reason) (c : RespContent) : State :=
  let resp := responseTo tag r st why c
  { s with cpt := { s.cpt with
      reqBuf := s.cpt.reqBuf.drop 1,
      out := s.cpt.out ++ [{ stamp := s.now % 4294967296, body := .response resp }],
      lastReq :=
        if isRead (reqKind r) then s.cpt.lastReq else some { kind := reqKind r, tag := tag, response := resp } } }

/-- A command stops in `v`: it ends with the hand-ons that stand there served, and where none stands it ends in `v`. -/
def Settles (c : Instr) (s v : State) : Prop :=
  exec c s = .next (State.finish v) ∧ HandOnFrame v (State.finish v) ∧ (v.work = [] → exec c s = .next v)

/-! ## Frames and samples as the statements name them -/

/-- The command that delivers a runway frame. -/
def rxCommand (f : Frame) : Instr :=
  match f.body with
  | .join pattern x => .rxJoin f.sender f.serial pattern x
  | .welcome pattern joiner => .rxWelcome f.sender f.serial pattern joiner
  | .beacon b => .rxBeacon f.sender f.serial b
  | .profile p => .rxProfile f.sender f.serial p
  | .claim t prio => .rxClaim f.sender f.serial t prio
  | .release t => .rxRelease f.sender f.serial t
  | .notice k => .rxNotice f.sender f.serial k
  | .truckState bay version c => .rxTruckState f.sender f.serial bay version c

/-- A frame of the own number with another serial faults the node in this state (R19, R20). -/
def faultsNode (st : NodeState) (b : FrameBody) : Prop :=
  match st, b with
  | .joining, .join _ _ => True
  | .joining, .welcome _ _ => True
  | .joining, .beacon _ => True
  | .running, .beacon _ => True
  | .resuming, .beacon _ => True
  | .parked, .beacon _ => True
  | _, _ => False

/-- A frame of the own number with another serial is reported in this state, and nothing else (R20). -/
def onlyReported (st : NodeState) (b : FrameBody) : Prop :=
  match st, b with
  | .config, .join _ _ => True
  | .config, .beacon _ => True
  | .running, .join _ _ => True
  | .resuming, .join _ _ => True
  | .parked, .join _ _ => True
  | _, _ => False

/-- A frame received on the runway line passes R5, is not from the own number, and the node is out of RESET (R5, R6). -/
def Routed (s : State) (n serial : Nat) (b : FrameBody) : Prop :=
  s.rlc.nodeState ≠ .reset ∧ Codec.frameOk { sender := n, serial := serial, body := b } = true
    ∧ s.rlc.craneNo ≠ some n

/-- A POSITION frame that is taken: right by R199, its grip state a code of R206, its sequence ahead of the last taken
(R208). -/
def TakesSample (s : State) (bytes : List Byte) (f : PositionFrame) (g : Grip) : Prop :=
  s.rlc.nodeState ≠ .reset ∧ Codec.decodePosition bytes = some f ∧ Codec.gripOf f.gripCode = some g
    ∧ ∀ last, s.cpt.sampleSeq = some last →
        1 ≤ (f.seq + 65536 - last) % 65536 ∧ (f.seq + 65536 - last) % 65536 < 32768

/-- A peer's claim on a target counts as HELD: its copy states it so, or its record is LOST (R79, R88). -/
def HoldsTarget (p : Peer) (t : Target) : Prop := ∃ e ∈ p.claims, e.target = t ∧ (p.liveness = .lost ∨ e.held = true)

/-- An event raised between two states is among the waiting records: so it is unless the output queue dropped an event on
the way (R204). -/
def Reports (s t : State) (e : Event) : Prop :=
  s.cpt.dropped < 65535 → t.cpt.dropped = s.cpt.dropped → ∃ r ∈ t.cpt.out, r.body = .event e

/-- A position takes a weight: it is not LOADED, and the weight keeps its own limit, the allowance and every group limit
(R167). -/
def FitsPosition (d : TruckData) (cumulative : Nat) (loads : List Nat) (p : Position) (w : Nat) : Prop :=
  p.loaded = false ∧ w ≤ p.maxKg ∧ cumulative + w ≤ d.allowance
    ∧ ∀ g, 1 ≤ g → g ≤ d.limits.length → loads.getD (g - 1) 0 + increment p w g ≤ d.limits.getD (g - 1) 0

/-- A bay position in use still takes the order's coil, at this place (R168): READY and not STALE after the version check,
weighing trusted with a STABLE result, the version below 65,535, and room for the weight used at DECIDE (R166, R167). The
weigh state that the test reads is given apart. -/
def StillFits (s : State) (w : Wgu) (img : Image) (a : Active) (bay pos : Nat) (p : Place) : Prop :=
  let own := s.tbu.trucks.get bay
  max (s.tbu.required.get bay) (highestSeen s.ptb bay) ≤ own.version ∧ own.version < 65535
    ∧ w.capture = none ∧ w.base = .ready ∧ a.result.map (·.status) = some .stable
    ∧ ∃ zn d cumulative loads q m, bayZone img bay = some zn ∧ own.content = .present true d cumulative loads
      ∧ a.usedWeight = some m ∧ 1 ≤ pos ∧ d.positions[pos - 1]? = some q ∧ FitsPosition d cumulative loads q m
      ∧ p = trailerPlace zn d.deckHeight q

/-- What the source test answers for an order (R177): the pick test on a slot, or on a bay position the first failing row of
R165 after the version check, and for an UNLOAD the coil id. -/
def SourceAnswers (s : State) (img : Image) (o : Order) (ans : SourceAnswer) : Prop :=
  match o.source with
  | .slot id => ans = match pickTest s img id with
    | .eligible => .eligible
    | .claimed _ => .claimed
    | .notOccupied _ => .failed .sourceNotOccupied
    | .blocked => .failed .sourceBlocked
    | .buried _ => .failed .sourceBuried
    | .noSlot => .failed .noSlot
  | .bay bay pos =>
    let own := s.tbu.trucks.get bay
    let fresh : Prop := max (s.tbu.required.get bay) (highestSeen s.ptb bay) ≤ own.version
    let row (p : Position) : Prop := bayZone img bay ≠ none ∧ 1 ≤ pos ∧ pos ≤ 6
      ∧ ∃ ready d cumulative loads, own.content = .present ready d cumulative loads ∧ d.positions[pos - 1]? = some p
    match ans with
    | .failed .noSource => ∀ p, ¬ row p
    | .truckStale => ¬ fresh ∧ ∃ p, row p
    | .failed .sourceNotOccupied => fresh ∧ ∃ p, row p ∧ p.loaded = false
    | .failed .versionLimit => fresh ∧ 65535 ≤ own.version ∧ ∃ p, row p ∧ p.loaded = true
    | .failed .coilIdDiffers => fresh ∧ own.version < 65535 ∧ o.kind = some .unload
        ∧ ∃ p, row p ∧ p.loaded = true ∧ p.coilId ≠ some o.coil
    | .eligible => fresh ∧ own.version < 65535
        ∧ ∃ p, row p ∧ p.loaded = true ∧ (o.kind = some .unload → p.coilId = some o.coil)
    | _ => False

/-- The place of an order's source (R182): of the slot, or of the trailer position as the record stands. -/
def SourceAt (s : State) (img : Image) (o : Order) (q : Place) : Prop :=
  match o.source with
  | .slot id => slotPlace img id = some q
  | .bay bay pos => ∃ zn ready d cumulative loads p, bayZone img bay = some zn
      ∧ (s.tbu.trucks.get bay).content = .present ready d cumulative loads ∧ 1 ≤ pos
      ∧ d.positions[pos - 1]? = some p ∧ q = trailerPlace zn d.deckHeight p

/-- The order is among the holders of an own entry on the target that is HELD. -/
def OrderHolds (s : State) (t : Target) : Prop :=
  ∃ c, findClaim s t = some c ∧ c.state = .held ∧ .order ∈ c.holders

/-- The active order has asked for these targets: it is among the holders of an entry on each, or an ask was refused,
the list being full or the order holding its 5 claims, and is made again (R178; log entry 55). -/
def AsksFor (t : State) (ts : List Target) : Prop :=
  ∃ b, t.moc.active = some b
    ∧ ((b.askRefused = true ∧ (6 ≤ t.clu.claims.length ∨ 5 ≤ orderClaims t))
      ∨ ∀ k ∈ ts, ∃ c, findClaim t k = some c ∧ .order ∈ c.holders)

/-- A result by the table of R136 for a full window, with STABLE, or at the timeout UNSTABLE, for one that is settled
(R136, R137): the weight is division × round half up of (S / (16 × division)). -/
def ClassifiedBy (img : Image) (win : List WindowEntry) (settled : WeighStatus) (r : WeighResult) : Prop :=
  let sum := (win.map (·.net)).foldl (· + ·) 0
  let w := windowWeight img win
  (0 < img.division → ∃ k, w = img.division * k
      ∧ 16 * img.division * (2 * k - 1) ≤ 2 * sum ∧ 2 * sum < 16 * img.division * (2 * k + 1))
    ∧ ((∃ e ∈ win, e.saturated = true) ∨ 99990 < w → r.status = .overRange ∧ r.weight = some 99999)
    ∧ ((∀ e ∈ win, e.saturated = false) → w ≤ 99990 →
        (w < -2 * img.division → r.status = .underZero ∧ r.weight = some 0)
          ∧ (-2 * img.division ≤ w → w < 0 → r.status = settled ∧ r.weight = some 0)
          ∧ (-2 * img.division ≤ w → 0 ≤ w → r.status = settled ∧ r.weight = some w.toNat))

/-- The active order has ended with this outcome, and its record is the newest of the ended ones (R195, R198). -/
def OrderEnded (t : State) (a : Active) (e : OrderEnd) : Prop :=
  t.moc.active = none
    ∧ t.moc.ended.head? = some { ord := a.ord, ending := e, result := a.result, destUse := a.destUse }

end Sys2Proof.Machine
end

