-- ==== Sys2Proof/Certificates/Slice0/Obligations.lean ====
section
/-! DEFINITION. The statements for the provers. Where a statement says `HandOnFrame u t`, `u` is the state in which the
command itself stops and `t` the one after its hand-ons between blocks are served; the frame says what those leave as it
was. -/

section
open Sys2Proof Sys2Proof.Machine

/-! ## The step and the limits of the state -/

/-- A step takes the command at the front of the queue and executes it with the queue's rest; with no command waiting
a millisecond passes (the model's choice, log entry 1). What the blocks hand on inside a command is served one after
the other, the first handed on first, until none is left; the model's count of at most 512 bounds the walk (the
model's choice, log entry 9). Where the statements below say that a command answers `State.finish u`, the hand-ons
that stand in `u` are so served. -/
def Obligations.StepRunsFrontCommand : Prop :=
  (∀ (c : Instr) (s : State) (rest : List Instr),
    step { s with pending := c :: rest } = exec c { s with pending := rest })
  ∧ (∀ s : State, s.pending = [] → step s = .next { s with now := s.now + 1 })
  ∧ ∀ s : State, ∃ (k : Nat) (f : Nat → State), k ≤ 512 ∧ f 0 = s ∧ State.finish s = f k
      ∧ (∀ i, i < k → ∃ w rest, (f i).work = w :: rest ∧ f (i + 1) = serveWork { f i with work := rest } w)
      ∧ (k < 512 → (State.finish s).work = [])

/-- The state after reset is within every limit that the invariants below speak of. -/
def Obligations.ResetStateKeepsEveryLimit : Prop :=
  OutputOk State.reset.cpt ∧ ClaimsOk State.reset.clu ∧ OrdersOk State.reset.moc ∧ WeighOk State.reset.wgu
    ∧ TrucksOk State.reset.tbu ∧ PeersOk State.reset ∧ BuffersOk State.reset ∧ PermitsOk State.reset
    ∧ ImageOk State.reset

/-- No step takes a buffer over its limit: in the output queue 8 responses, one PERMIT, one TARGET, 8 slot stream
records and 48 events (R203, R204, R200); 16 frames in the transmit queue, 8 notices in their repeat windows, 4 frames
in the request buffer (R1, R12, R200). The own claim list never holds more than 6 entries, and never the same target
twice (R77); the order queue stays within 8 orders, the ended records within 4, the excluded list within 8 (R174,
R176, R198); the class window and the session window within 16 nets, the overload count within 8 (R131, R135); and the
peer table stays a table: at most 7 records, by rising crane number, none of the own number, each with at most 6
claims, and none in RESET (R28, R29). -/
def Obligations.StepKeepsQueueAndListLimits : Prop :=
  ((∀ s t : State, OutputOk s.cpt → step s = .next t → OutputOk t.cpt)
     ∧ ∀ s t : State, BuffersOk s → step s = .next t → BuffersOk t)
  ∧ ∀ s t : State, step s = .next t →
      (ClaimsOk s.clu → ClaimsOk t.clu) ∧ (OrdersOk s.moc → OrdersOk t.moc) ∧ (WeighOk s.wgu → WeighOk t.wgu)
        ∧ (PeersOk s → PeersOk t)

/-- In every truck record the cumulative weight and the group loads stay the sums over its LOADED positions and within
the allowance and the group limits (R152). A record's version, and a bay's required version but for the starts, is
never lowered except at power-on and the reset pin (R154, R155). -/
def Obligations.StepKeepsTrailerSumsAndVersions : Prop :=
  (∀ s t : State, TrucksOk s.tbu → step s = .next t → TrucksOk t.tbu)
  ∧ ∀ (s t : State) (bay : Nat), step s = .next t → s.pending.head? ≠ some .powerOn →
    s.pending.head? ≠ some .resetPinAssert →
      (s.tbu.trucks.get bay).version ≤ (t.tbu.trucks.get bay).version
        ∧ ((∀ straps, s.pending.head? ≠ some (.restart straps)) →
            s.tbu.required.get bay ≤ t.tbu.required.get bay)

/-- While the node state is not RUNNING all six permits stay 0 with cause STATE, whatever command comes (R68). No step
holds a validated image in RESET or CONFIG, and the slot map keeps one record for each existing slot of the image
held, whose rows are at most 40 with at most 12 lowers each and whose zones have ids of their own (R125, R214, R97,
R74). A validated image stays as it is until power-on or the reset pin (R214, R216, R217). -/
def Obligations.StepKeepsZeroPermitsImageAndMap : Prop :=
  (∀ s t : State, PermitsOk s → step s = .next t → PermitsOk t)
  ∧ ∀ s t : State, ImageOk s → step s = .next t →
      ImageOk t ∧ ∀ img, s.cpt.image = some img → s.pending.head? ≠ some .powerOn →
        s.pending.head? ≠ some .resetPinAssert → t.cpt.image = some img

/-- No step changes the node state but by a transition of the table of section 1.9 with the event of that transition:
START from CONFIG to JOINING, the end of the join timer to RUNNING, PARK, UNPARK, the end of the resume timer, RESTART
by its straps, a frame of the own number with another serial to FAULT, RESET_RELEASE by its straps; and RESET is
entered only by POWER_ON and RESET_PIN_ASSERT (R14, R16). An own claim that is HELD after a step was HELD before it,
unless the step was the end of that entry's settle timer (R82). -/
def Obligations.NodeStateAndHeldChangeOnlyByTheirEvents : Prop :=
  (∀ s t : State, step s = .next t →
     t.rlc.nodeState = s.rlc.nodeState
       ∨ ∃ c, s.pending.head? = some c ∧ nodeEvent s c s.rlc.nodeState t.rlc.nodeState)
  ∧ ∀ (s t : State) (c : OwnClaim), step s = .next t → c ∈ t.clu.claims → c.state = .held →
      s.pending.head? ≠ some (.settleTimerExpiry c.target) →
        ∃ d ∈ s.clu.claims, d.target = c.target ∧ d.state = .held

/-! ## Frames as bytes -/

/-- Every runway frame that passes R5 and R219 is read back from its bytes as it was sent: no bit of a layout of 10.2
is dropped; and what is read as a frame is the bytes of a frame that passes R5 and R219, and of that frame alone. A
CLAIM or RELEASE with a target kind byte of 2 or more is such a frame too: R219 does not judge that byte. The crane
port frames of 10.3 likewise: header and payload of a frame are read back from its bytes, what is opened is the bytes
of that header and payload with their CRC, and a POSITION frame whose fields fit is read back as it was sent. -/
def Obligations.FramesAndBytesAgree : Prop :=
  (∀ f : Frame, Codec.frameOk f = true → Codec.decode (Codec.encode f) = some f)
    ∧ (∀ (bytes : List Byte) (f : Frame), Codec.decode bytes = some f →
        Codec.frameOk f = true ∧ Codec.encode f = bytes)
    ∧ (∀ (kind seq : Nat) (body : List Byte), kind < 256 → seq < 65536 → body.length < 65536 →
        Codec.openPort (Codec.portFrame kind seq body)
          = some { kind := kind, length := body.length, seq := seq, payload := body })
    ∧ (∀ (bytes : List Byte) (h : Codec.PortFrame), Codec.openPort bytes = some h →
        bytes = Codec.withCrc (Codec.put1 h.kind ++ Codec.put2 h.length ++ Codec.put2 h.seq ++ h.payload))
    ∧ ∀ f : PositionFrame, Codec.positionFrameFits f = true → Codec.decodePosition (Codec.encodePosition f) = some f

/-! ## Permits, ranks, heights and weights -/

/-- A travel permit is at most Vmax and every ceiling; against every obstacle counted in its direction it is 0 where
the free distance less the allowance is not above 0, and else its square is at most 2 × deceleration × that distance;
and it is the least of the nearest obstacle's limit, Vmax and the ceilings (R63). Its cause is that of the limit it
takes; among equal limits, and among obstacles at an equal distance, the cause first in the order of R69, within one
kind the lower number. isqrt(n) is the largest integer whose square does not exceed n (00_scope). -/
def Obligations.TravelPermitIsTheLeastLimit : Prop :=
  (∀ n : Nat, isqrt n * isqrt n ≤ n ∧ n < (isqrt n + 1) * (isqrt n + 1))
  ∧ ∀ (vmax dec allow : Int) (obs : List Obstacle) (ceilings : List Permit), 0 ≤ vmax → 0 ≤ dec → obs ≠ [] →
    (∀ c ∈ ceilings, 0 ≤ c.speed) →
    let p := travelPermit vmax dec allow obs ceilings
    let v := p.speed
    0 ≤ v ∧ v ≤ vmax ∧ (∀ c ∈ ceilings, v ≤ c.speed)
      ∧ (∀ o ∈ obs, o.d - allow ≤ 0 → v = 0)
      ∧ (∀ o ∈ obs, 0 < o.d - allow → v * v ≤ 2 * dec * (o.d - allow))
      ∧ ∃ o ∈ obs, ∃ stop : Int, (∀ q ∈ obs, o.d < q.d ∨ (o.d = q.d ∧ ¬ NamedFirst q.cause o.cause))
          ∧ (o.d - allow ≤ 0 → stop = 0)
          ∧ (0 < o.d - allow → stop = isqrt (2 * dec * (o.d - allow)).toNat)
          ∧ (let limits : List Permit := { speed := stop, cause := o.cause } :: { speed := vmax, cause := .vmax } :: ceilings
             p ∈ limits ∧ ∀ c ∈ limits, v < c.speed ∨ (v = c.speed ∧ ¬ NamedFirst c.cause p.cause))

/-- What a computation counts, and what its permits are made of (R47, R48, R52 to R65). Gantry: each peer on its side
of x0 by the near edge of its envelope, both sides where x is equal; the runway end; each EXCLUSIVE or TRUCK_BAY zone
ahead of the bumper without an own HELD claim; each NO_LOAD zone ahead while the class is not EMPTY and the hook in
its y range; each row ahead of the hook whose top plus clearance is above the load bottom. Trolley: the span end, each
NO_LOAD zone ahead while the class is not EMPTY and the hook in its x range, each column ahead of a row over which the
hook stands. Tops are the largest of the slots they are made of (R113). The travel permits are those limits with the
values of the load class, the reaction allowance rounded up, the ceilings of SLOW zones under the footprint and of
OVERLOAD, and on the gantry those of zone conflicts under it; a free distance is that of the nearest obstacle. -/
def Obligations.ObstaclesAndCeilingsAreCounted : Prop :=
  (∀ (s : State) (img : Image),
    let x := s.sample.x
    let y := s.sample.y
    let lo := x - img.left
    let hi := x + img.right
    let gap := img.gapWall
    let c := s.wgu.loadClass
    let hung : Int := match s.moc.active.bind fun a => a.coil.diameter with
      | some d => (d : Int)
      | none => img.dmax
    let bottom := s.sample.z - img.tongHang - if c = .empty then 0 else hung
    let held (z : Zone) : Prop := ∃ k ∈ s.clu.claims, k.target = .zone z.id ∧ k.state = .held
    let shut (z : Zone) : Prop := (z.kind = .exclusive ∨ z.kind = .truckBay) ∧ ¬ held z
    let barsX (z : Zone) : Prop := z.kind = .noLoad ∧ c ≠ .empty ∧ z.y0 ≤ y ∧ y ≤ z.y1
    let barsY (z : Zone) : Prop := z.kind = .noLoad ∧ c ≠ .empty ∧ z.x0 ≤ x ∧ x ≤ z.x1
    let wall (z : Zone) (d : Int) (b : Obstacle) : Prop :=
      (shut z ∧ b = { d := d, cause := .zone z.id }) ∨ (barsX z ∧ b = { d := d, cause := .noLoad z.id })
    let row (r : Nat) (w : Row) : Prop :=
      1 ≤ r ∧ img.rows[r - 1]? = some w ∧ bottom < rowTop img s.smu r + img.clearance
    let column (k : Nat) (lane : Int) : Prop := ∃ r w p, 1 ≤ r ∧ img.rows[r - 1]? = some w ∧ |x - w.centre| ≤ w.half
      ∧ 1 ≤ p ∧ w.lanes[p - 1]? = some lane ∧ bottom < columnTop img s.smu r p + img.clearance ∧ k = (r - 1) * 23 + p
    let under (z : Zone) : Prop := lo ≤ z.x1 ∧ z.x0 ≤ hi
    let pick (b : ByClass) : Int := if c = .empty then b.empty else b.loaded
    let o := obstaclesOf s img
    (∀ b, b ∈ o.gantryPlus ↔
        (∃ p ∈ s.ptb.peers, x ≤ p.x ∧ b = { d := (envelope img s.now p).lo - hi - img.gapPeer, cause := .peer p.n })
          ∨ b = { d := img.runway - hi - gap, cause := .runwayEnd }
          ∨ (∃ z ∈ img.zones, hi < z.x0 ∧ wall z (z.x0 - hi - gap) b)
          ∨ ∃ r w, row r w ∧ x < w.centre ∧ b = { d := w.centre - w.half - x - gap, cause := .row r })
      ∧ (∀ b, b ∈ o.gantryMinus ↔
        (∃ p ∈ s.ptb.peers, p.x ≤ x ∧ b = { d := lo - (envelope img s.now p).hi - img.gapPeer, cause := .peer p.n })
          ∨ b = { d := lo - gap, cause := .runwayEnd }
          ∨ (∃ z ∈ img.zones, z.x1 < lo ∧ wall z (lo - z.x1 - gap) b)
          ∨ ∃ r w, row r w ∧ w.centre < x ∧ b = { d := x - (w.centre + w.half) - gap, cause := .row r })
      ∧ (∀ b, b ∈ o.trolleyPlus ↔
        b = { d := img.span - y - gap, cause := .spanEnd }
          ∨ (∃ z ∈ img.zones, barsY z ∧ y < z.y0 ∧ b = { d := z.y0 - y - gap, cause := .noLoad z.id })
          ∨ ∃ k lane, column k lane ∧ y < lane ∧ b = { d := lane - img.columnHalf - y - gap, cause := .column k })
      ∧ (∀ b, b ∈ o.trolleyMinus ↔
        b = { d := y - gap, cause := .spanEnd }
          ∨ (∃ z ∈ img.zones, barsY z ∧ z.y1 < y ∧ b = { d := y - z.y1 - gap, cause := .noLoad z.id })
          ∨ ∃ k lane, column k lane ∧ lane < y ∧ b = { d := y - (lane + img.columnHalf) - gap, cause := .column k })
      ∧ ∃ ag tr ceilings creeps,
        (pick img.gantryVmax * img.reaction ≤ 1000 * ag ∧ 1000 * (ag - 1) < pick img.gantryVmax * img.reaction)
          ∧ (pick img.trolleyVmax * img.reaction ≤ 1000 * tr ∧ 1000 * (tr - 1) < pick img.trolleyVmax * img.reaction)
          ∧ (∀ p : Permit, p ∈ ceilings ↔
              (∃ z ∈ img.zones, z.kind = .slow ∧ under z ∧ p = { speed := z.ceiling, cause := .ceiling z.id })
                ∨ (c = .overload ∧ p = { speed := img.creep, cause := .overload }))
          ∧ (∀ p : Permit, p ∈ creeps ↔ ∃ z ∈ img.zones, z.id ∈ s.clu.conflicts ∧ under z
              ∧ p = { speed := img.creep, cause := .conflict z.id })
          ∧ computedPermits s img o =
              { gantryPlus := travelPermit (pick img.gantryVmax) (pick img.gantryDec) ag o.gantryPlus (creeps ++ ceilings),
                gantryMinus := travelPermit (pick img.gantryVmax) (pick img.gantryDec) ag o.gantryMinus (creeps ++ ceilings),
                trolleyPlus := travelPermit (pick img.trolleyVmax) (pick img.trolleyDec) tr o.trolleyPlus ceilings,
                trolleyMinus := travelPermit (pick img.trolleyVmax) (pick img.trolleyDec) tr o.trolleyMinus ceilings,
                hoistUp := hoistUpPermit s img, hoistDown := hoistDownPermit s img })
  ∧ (∀ (o : Obstacles) (d : Int) (obs : List Obstacle), ((d = (freeSet o).gantryPlus ∧ obs = o.gantryPlus)
        ∨ (d = (freeSet o).gantryMinus ∧ obs = o.gantryMinus) ∨ (d = (freeSet o).trolleyPlus ∧ obs = o.trolleyPlus)
        ∨ (d = (freeSet o).trolleyMinus ∧ obs = o.trolleyMinus)) → obs ≠ [] →
      (∃ b ∈ obs, d = b.d) ∧ ∀ b ∈ obs, d ≤ b.d)
  ∧ ∀ (img : Image) (m : Smu) (r : Nat) (w : Row), RowsFit img → 1 ≤ r → img.rows[r - 1]? = some w →
      (∀ top, rowTop img m r ≤ top ↔ 0 ≤ top ∧ ∀ p, 1 ≤ p → p ≤ w.lanes.length → columnTop img m r p ≤ top)
        ∧ ∀ p v, 1 ≤ p → p ≤ w.lanes.length → slotRec m ((r - 1) * 23 + p) = some v →
          ∀ top, columnTop img m r p ≤ top ↔ recTop img false v ≤ top
            ∧ ∀ k, (k = p ∨ k + 1 = p) → 1 ≤ k → k + 1 ≤ w.lanes.length →
                recTop img true ((slotRec m ((r - 1) * 23 + 12 + k)).getD
                  { content := .unknown, coil := {}, blocked := false, disputed := false, source := none }) ≤ top

/-- The hoist permits are set by the first row of their tables that holds (R66, R67). -/
def Obligations.HoistPermitsFollowTables : Prop :=
  ∀ (s : State) (img : Image),
    let full : Permit :=
      { speed := if s.wgu.loadClass = .empty then img.hoistVmax.empty else img.hoistVmax.loaded, cause := .vmax }
    let z := s.sample.z
    (img.zMax ≤ z → hoistUpPermit s img = { speed := 0, cause := .zLimit })
      ∧ (z < img.zMax → s.wgu.loadClass = .overload → hoistUpPermit s img = { speed := 0, cause := .overload })
      ∧ (z < img.zMax → s.wgu.loadClass ≠ .overload → hoistUpPermit s img = full)
      ∧ (z ≤ img.zMin → hoistDownPermit s img = { speed := 0, cause := .zLimit })
      ∧ (img.zMin < z → s.moc.active = none → hoistDownPermit s img = full)
      ∧ ∀ a, img.zMin < z → s.moc.active = some a →
          (∀ c, a.phase = .pickLower ∨ a.phase = .placeLower → a.contact = some c → z ≤ c + 500 →
            hoistDownPermit s img = { speed := img.creep, cause := .contact })
          ∧ (∀ c, a.phase = .pickLower ∨ a.phase = .placeLower → a.contact = some c → c + 500 < z →
            hoistDownPermit s img = full)
          ∧ (a.phase ≠ .pickLower → a.phase ≠ .placeLower → hoistDownPermit s img = full)

/-- The envelope of a peer (R49 to R51). Its age is the time since its position came plus the age that came with it,
at most 65,535. The growth is 0 for a PARKED peer that is LIVE or STALE, else the ceiling of age × Vmax / 1000; s is
the ceiling of vx² / (2 × deceleration), r that of |vx| × reaction / 1000, with the values of the peer's class, the
EMPTY ones only for the class EMPTY (R36). Each edge is x and the extent and the growth, with s + r on the side it
moves to and on neither side at vx = 0, clamped to the runway. -/
def Obligations.EnvelopeEdgesAreExact : Prop :=
  ∀ (img : Image) (now : Nat) (p : Peer), 0 ≤ img.runway →
    let q := p.profile.getD img.unknown
    let age : Nat := min 65535 (now - p.arrival + p.age)
    let vmax : Nat := if p.loadClass = some .empty then q.vmaxEmpty else q.vmaxLoaded
    let dec : Nat := if p.loadClass = some .empty then q.decEmpty else q.decLoaded
    let resting : Prop := p.nodeState = some .parked ∧ p.liveness ≠ .lost
    let clamped (v : Int) : Int := max 0 (min img.runway v)
    0 < dec → ∃ g s r : Int,
      (resting → g = 0)
        ∧ (¬ resting → (age : Int) * vmax ≤ 1000 * g ∧ 1000 * (g - 1) < (age : Int) * vmax)
        ∧ p.vx * p.vx ≤ 2 * (dec : Int) * s ∧ 2 * (dec : Int) * (s - 1) < p.vx * p.vx
        ∧ |p.vx| * q.reaction ≤ 1000 * r ∧ 1000 * (r - 1) < |p.vx| * q.reaction
        ∧ envelope img now p =
            { lo := clamped (p.x - q.left - g - if p.vx < 0 then s + r else 0),
              hi := clamped (p.x + q.right + g + if 0 < p.vx then s + r else 0) }

/-- A better peer claim on a target, for an own claim taken as ASKING: some record's entry on it is taken as HELD, or
has a higher priority, or the same priority and a lower serial (R79). For an own HELD claim the peer's HELD claim
outranks it by priority, then by serial (R79, R92). A waiting order is put behind every order of its own or a higher
priority that stands ahead of the first lower one, and the others keep their order (R176). -/
def Obligations.ClaimsAndOrdersRankByPriority : Prop :=
  ((∀ (s : State) (t : Target) (prio : Nat), betterClaim s t prio = true ↔
     ∃ p ∈ s.ptb.peers, ∃ e ∈ p.claims, e.target = t
       ∧ ((p.liveness = .lost ∨ e.held = true) ∨ prio < e.prio ∨ (e.prio = prio ∧ p.serial < s.serial)))
   ∧ ∀ (s : State) (t : Target) (prio : Nat) (p : Peer), outranksHeld s t prio p = true ↔
     ∃ e ∈ p.claims, e.target = t ∧ (prio < e.prio ∨ (e.prio = prio ∧ p.serial < s.serial)))
  ∧ ∀ (o : Order) (l : List Order),
      insertOrder o l =
          l.takeWhile (fun q => decide (o.prio ≤ q.prio)) ++ o :: l.dropWhile (fun q => decide (o.prio ≤ q.prio))
        ∧ (l.Pairwise (fun a b => b.prio ≤ a.prio) → (insertOrder o l).Pairwise (fun a b => b.prio ≤ a.prio))

/-- The top of a slot by its tier and content (R112). -/
def Obligations.SlotTopByTierAndContent : Prop :=
  ∀ (img : Image) (r : SlotRec),
    let d : Int := match r.coil.diameter with
      | some v => (v : Int)
      | none => img.dmax
    (r.content = .empty → recTop img false r = img.saddleHeight ∧ recTop img true r = 0)
      ∧ (r.content = .occupied →
          recTop img false r = img.saddleHeight + d ∧ recTop img true r = img.saddleHeight + img.upperSeat + d)
      ∧ (r.content = .unknown →
          recTop img false r = img.saddleHeight + img.upperSeat + img.dmax
            ∧ recTop img true r = img.saddleHeight + img.upperSeat + img.dmax)

/-- The pick test answers with the first failing row of R114: no such slot; a content that is not OCCUPIED, with it;
blocked; claimed by a peer in any state, with the lowest crane number that claims it; a lower slot under an upper one
that is OCCUPIED or UNKNOWN, with the ids of those by rising number; else ELIGIBLE. The peer table stands by rising
crane number (R28; its invariant is stated above). -/
def Obligations.PickTestAnswersInOrder : Prop :=
  ∀ (s : State) (img : Image) (id : Nat), s.ptb.peers.Pairwise (fun p q => p.n < q.n) →
    let ans := pickTest s img id
    let claims (p : Peer) : Prop := p ∈ s.ptb.peers ∧ ∃ e ∈ p.claims, e.target = .slot id
    let stands (u : Nat) : Prop := RestsOn img u id ∧ ∃ r, slotRec s.smu u = some r ∧ r.content ≠ .empty
    let found : Prop := ∃ r row up p v, SlotAt img id r row up p ∧ slotRec s.smu id = some v
    (¬ found → ans = .noSlot)
      ∧ ∀ v, found → slotRec s.smu id = some v →
          (v.content ≠ .occupied → ans = .notOccupied v.content)
            ∧ (v.content = .occupied → v.blocked = true → ans = .blocked)
            ∧ (v.content = .occupied → v.blocked = false →
                (∀ p, claims p → (∀ q, claims q → p.n ≤ q.n) → ans = .claimed p.n)
                  ∧ ((∀ p, ¬ claims p) → (∀ u, ¬ stands u) → ans = .eligible)
                  ∧ ((∀ p, ¬ claims p) → (∃ u, stands u) →
                      ∃ ids, ans = .buried ids ∧ ids.Pairwise (· < ·) ∧ ∀ u, u ∈ ids ↔ stands u))

/-- The candidate test of a destination slot names its first failure in the order of R122 (R115 to R120): absent, not
EMPTY, blocked, disputed, excluded, claimed by a peer in any state, claimed by the node for another than the order,
outside the reachable window, in a zone that a peer holds, in a NO_LOAD zone, then for a lower slot too large or under
a stack, and for an upper slot its two supports, their tolerances, widths and weights. A diameter that is absent is
taken as Dmax; a width or weight that is absent fails. An area's slots are those of its rows; with LOWER_ONLY only a
lower one passes; the cost is the floored distance in units of 100 mm and the penalty of an upper slot (R119, R121).
The slots' ids and places are those of R99 and R100. That the weight asked for is a STABLE or UNSTABLE result's, else
the declared one, is the model's reading (log entry 23). -/
def Obligations.CandidateTestNamesTheFirstFailure : Prop :=
  (∀ (s : State) (img : Image) (w : Wanted) (id : Nat),
    let ans := candidateFail s img w id
    let found : Prop := ∃ r row up p v, SlotAt img id r row up p ∧ slotRec s.smu id = some v
    (¬ found → ans = some .absent)
    ∧ ∀ r row up p v, SlotAt img id r row up p → slotRec s.smu id = some v →
      let d : Int := match w.diameter with
        | some n => (n : Int)
        | none => img.dmax
      let first (k : Nat) : Option SlotRec := slotRec s.smu ((r - 1) * 23 + k)
      let supports (f : SlotRec → SlotRec → Prop) : Prop := ∃ a b, first p = some a ∧ first (p + 1) = some b ∧ f a b
      let firm (a : SlotRec) : Prop := a.content = .occupied ∧ a.disputed = false ∧ a.blocked = false
        ∧ a.coil.diameter ≠ none ∧ a.coil.weight ≠ none
      let even : Prop := supports fun a b => ∃ d1 d2 : Nat, a.coil.diameter = some d1 ∧ b.coil.diameter = some d2
        ∧ |(d1 : Int) - d2| ≤ img.tierTolerance ∧ d ≤ min (d1 : Int) d2 + img.upperOversize
      let wide : Prop := supports fun a b => ∃ w1 w2 wc : Nat, a.coil.width = some w1 ∧ b.coil.width = some w2
        ∧ w.width = some wc ∧ (wc : Int) ≤ min (w1 : Int) w2 + img.widthTolerance
      let light : Prop := supports fun a b => ∃ m1 m2 m : Nat, a.coil.weight = some m1 ∧ b.coil.weight = some m2
        ∧ w.weight = some m ∧ (m : Int) * 100 ≤ min (m1 : Int) m2 * img.upperRatio
      ∃ q, slotPlace img id = some q ∧ q.x = row.centre
        ∧ (up = false → q.seat = img.saddleHeight ∧ row.lanes[p - 1]? = some q.y)
        ∧ (up = true → q.seat = img.saddleHeight + img.upperSeat ∧ ∀ y1 y2, row.lanes[p - 1]? = some y1 →
            row.lanes[p]? = some y2 → 2 * q.y ≤ y1 + y2 ∧ y1 + y2 < 2 * q.y + 2)
        ∧ FirstHolds ans
          [ (v.content ≠ .empty, some .notEmpty),
            (v.blocked = true, some .blocked),
            (v.disputed = true, some .disputed),
            (id ∈ w.excluded, some .excluded),
            ((∃ k ∈ s.ptb.peers, ∃ e ∈ k.claims, e.target = .slot id), some .peerClaim),
            ((∃ c, findClaim s (.slot id) = some c ∧ .order ∉ c.holders), some .ownClaim),
            (q.x < 0 ∨ img.runway < q.x
              ∨ (∃ k ∈ s.ptb.peers, k.x ≤ s.sample.x ∧ q.x < (envelope img s.now k).hi + img.gapPeer + img.left)
              ∨ (∃ k ∈ s.ptb.peers, s.sample.x ≤ k.x ∧ (envelope img s.now k).lo - img.gapPeer - img.right < q.x),
              some .outOfReach),
            ((∃ z ∈ img.zones, (z.kind = .exclusive ∨ z.kind = .truckBay) ∧ z.x0 ≤ q.x ∧ q.x ≤ z.x1
              ∧ ∃ k ∈ s.ptb.peers, HoldsTarget k (.zone z.id)), some .zoneHeld),
            ((∃ z ∈ img.zones, z.kind = .noLoad ∧ z.x0 ≤ q.x ∧ q.x ≤ z.x1 ∧ z.y0 ≤ q.y ∧ q.y ≤ z.y1), some .noLoad),
            (up = false ∧ img.saddleMax < d, some .diameter),
            (up = false ∧ StackStands s img id, some .buriedBelow),
            (up = true ∧ ¬ supports (fun a b => firm a ∧ firm b), some .support),
            (up = true ∧ ¬ even, some .tolerance),
            (up = true ∧ ¬ wide, some .width),
            (up = true ∧ ¬ light, some .weight) ] none
        ∧ (∀ tier, passes s img w tier id = true ↔ ans = none ∧ (tier = .any ∨ up = false))
        ∧ (let far := slotCost s img id - if up then img.upperPenalty else 0
           100 * far ≤ |row.centre - s.sample.x| ∧ |row.centre - s.sample.x| < 100 * far + 100))
  ∧ (∀ (img : Image) (id r1 r2 : Nat), RowsFit img →
      (id ∈ areaSlots img r1 r2 ↔ ∃ r row up p, SlotAt img id r row up p ∧ r1 ≤ r ∧ r ≤ r2)
        ∧ (slotExists img id = true ↔ ∃ r row up p, SlotAt img id r row up p))
  ∧ ∀ a : Active, (wantedOf a).diameter = a.coil.diameter ∧ (wantedOf a).width = a.coil.width
      ∧ (wantedOf a).weight = coilWeight a.result a.coil ∧ (wantedOf a).excluded = a.excluded
      ∧ (∀ r w, a.result = some r → r.status = .stable ∨ r.status = .unstable → r.weight = some w →
          coilWeight a.result a.coil = some w)
      ∧ ((∀ r w, a.result = some r → r.status = .stable ∨ r.status = .unstable → r.weight ≠ some w) →
          coilWeight a.result a.coil = a.coil.weight)

/-- An area choice is a slot of its rows that passes the candidate test, of the lowest cost among those, and among
equal costs of the lowest id; and none is chosen only where none passes (R121). -/
def Obligations.AreaChoiceIsCheapest : Prop :=
  ∀ (s : State) (img : Image) (w : Wanted) (r1 r2 : Nat) (tier : Tier), RowsFit img →
    (areaChoice s img w r1 r2 tier = none ↔ ∀ id ∈ areaSlots img r1 r2, passes s img w tier id = false)
      ∧ ∀ id, areaChoice s img w r1 r2 tier = some id →
          id ∈ areaSlots img r1 r2 ∧ passes s img w tier id = true
            ∧ ∀ k ∈ areaSlots img r1 r2, passes s img w tier k = true →
                slotCost s img id < slotCost s img k ∨ (slotCost s img id = slotCost s img k ∧ id ≤ k)

/-- A static gross mass is (raw − zero) × scale span / 65,536 to the nearest integer, an exact half to the greater
magnitude (R128). -/
def Obligations.GrossIsRoundedHalfAway : Prop :=
  ∀ (img : Image) (zero raw : Int),
    let p := (raw - zero) * img.scaleSpan
    let g := grossOf img zero raw
    (0 ≤ p → 65536 * (2 * g - 1) ≤ 2 * p ∧ 2 * p < 65536 * (2 * g + 1))
      ∧ (p < 0 → 65536 * (2 * g - 1) < 2 * p ∧ 2 * p ≤ 65536 * (2 * g + 1))

/-- The load class after a sample, by the first row of R132 that applies; at power-on and after the reset pin it is
LOADED. The match flag of a weigh result (R138). -/
def Obligations.LoadClassAndMatchFlagFollowTables : Prop :=
  (State.reset.wgu.loadClass = .loaded
   ∧ ∀ (img : Image) (win : List Int) (count : Nat),
     let sum := win.foldl (· + ·) 0
     (8 ≤ count → nextClass img .empty win count = .overload ∧ nextClass img .loaded win count = .overload)
       ∧ (count < 8 → win.length = 16 → 16 * 1000 ≤ sum → nextClass img .empty win count = .loaded)
       ∧ (count < 8 → (win.length ≠ 16 ∨ sum < 16 * 1000) → nextClass img .empty win count = .empty)
       ∧ (count < 8 → win.length = 16 → sum < 16 * 600 → nextClass img .loaded win count = .empty)
       ∧ (count < 8 → (win.length ≠ 16 ∨ 16 * 600 ≤ sum) → nextClass img .loaded win count = .loaded)
       ∧ (win.length = 16 → sum < 16 * img.ratedCapacity → nextClass img .overload win count = .loaded)
       ∧ ((win.length ≠ 16 ∨ 16 * img.ratedCapacity ≤ sum) → nextClass img .overload win count = .overload))
  ∧ ∀ (img : Image) (st : WeighStatus) (w : Option Nat),
      (∀ mass, (resultOf img (.span mass) st w).flag = .notChecked)
        ∧ (∀ id coil, (resultOf img (.order id coil none) st w).flag = .notChecked)
        ∧ ∀ id coil md, let flag (st : WeighStatus) (w : Option Nat) := (resultOf img (.order id coil (some md)) st w).flag
          flag .noResult w = .notChecked ∧ flag .overRange w = .mismatch ∧ flag .underZero w = .mismatch
            ∧ ∀ v : Nat,
              let off := max (img.toleranceKg * 1000) ((md : Int) * img.tolerancePm) < |(v : Int) - (md : Int)| * 1000
              (off → flag .stable (some v) = .mismatch ∧ flag .unstable (some v) = .mismatch)
                ∧ (¬ off → flag .stable (some v) = .agrees ∧ flag .unstable (some v) = .agrees)

/-- An event offered to the output queue (R204): queued with room; dropped and counted while 48 wait; after a drop
queued behind EVENTS_LOST where two places are free, with the lost count back at 0, and else dropped and counted (that
the lost count stops at 65,535 like EVENT_DROPPED is the model's choice, log entry 67). The record's time stamp is
taken when it joins the queue (the model's choice, log entry 16). A frame offered to the transmit queue joins its
tail, is dropped and counted while 16 frames are queued, and as a BEACON or PROFILE takes the place of a waiting one
of its kind, uncounted (R1). A BEACON or PROFILE that is being sent is not waiting, so that a newer one joins the tail
(the model's reading, log entry 11). -/
def Obligations.OffersAreQueuedOrCounted : Prop :=
  (∀ (s : State) (e : Event),
     let n := waitingOut isEvent s.cpt.out
     let rec_ (b : Event) : OutRecord := { stamp := s.now % 4294967296, body := .event b }
     let drop : Cpt :=
       { s.cpt with dropped := min 65535 (s.cpt.dropped + 1), lost := min 65535 (s.cpt.lost + 1) }
     (s.cpt.lost = 0 → n < 48 → s.emit e = { s with cpt := { s.cpt with out := s.cpt.out ++ [rec_ e] } })
       ∧ (s.cpt.lost = 0 → 48 ≤ n → s.emit e = { s with cpt := drop })
       ∧ (s.cpt.lost ≠ 0 → n ≤ 46 → s.emit e =
           { s with cpt := { s.cpt with out := s.cpt.out ++ [rec_ (.eventsLost s.cpt.lost)] ++ [rec_ e], lost := 0 } })
       ∧ (s.cpt.lost ≠ 0 → 47 ≤ n → s.emit e = { s with cpt := drop }))
  ∧ ∀ (s : State) (i : TxItem),
      let u := s.offer i
      u = { s with draws := u.draws,
                   rlc := { s.rlc with queue := u.rlc.queue, access := u.rlc.access, attempts := u.rlc.attempts,
                                       wire := u.rlc.wire, txDropped := u.rlc.txDropped } }
        ∧ (isRefilled i = true → i ∈ waitingFrames s.rlc →
            u.rlc.queue = s.rlc.queue ∧ u.rlc.txDropped = s.rlc.txDropped)
        ∧ (¬(isRefilled i = true ∧ i ∈ waitingFrames s.rlc) → s.rlc.queue.length < 16 →
            u.rlc.queue = s.rlc.queue ++ [i] ∧ u.rlc.txDropped = s.rlc.txDropped)
        ∧ (¬(isRefilled i = true ∧ i ∈ waitingFrames s.rlc) → 16 ≤ s.rlc.queue.length →
            u.rlc.queue = s.rlc.queue ∧ u.rlc.txDropped = min 65535 (s.rlc.txDropped + 1))

/-! ## Resets, line access and reception -/

/-- RESET is entered at POWER_ON and RESET_PIN_ASSERT with every block at the values of its reset table, or, where the
spec gives none, at those of log entry 20 (serial 1 is kept as the state's own, log entry 4); the serial, the count of
random draws, the waiting commands and the busy line stay (the model's choice, log entries 38 and 5). RESET is left by
the strap pins: a value of 1 to 7 gives that crane number and CONFIG, a value of 0 with the eighth-crane pin tied
number 8 and CONFIG, and 0 with the pin open FAULT with cause NO_NUMBER; and the straps are read again only by RESTART
(R16, R24). What stands after the hand-ons is stated (log entry 9). -/
def Obligations.StrapsGiveTheCraneNumber : Prop :=
  (∀ s : State, exec .powerOn s = .next
      { State.reset with serial := s.serial, draws := s.draws, pending := s.pending,
                         rlc := { State.reset.rlc with lineBusy := s.rlc.lineBusy, lastStop := .powerOn } })
  ∧ (∀ s : State, exec .resetPinAssert s = .next
      { State.reset with serial := s.serial, draws := s.draws, pending := s.pending,
                         rlc := { State.reset.rlc with lineBusy := s.rlc.lineBusy, lastStop := .resetPin } })
  ∧ (∀ (s : State) (t : Straps) (k : Nat), s.rlc.nodeState = .reset →
      (1 ≤ k ∧ t.value.val = k ∨ t.value.val = 0 ∧ t.eighthTied = true ∧ k = 8) →
        ∃ u, exec (.resetRelease t) s = .next u
          ∧ HandOnFrame { s with now := 0, rlc := { s.rlc with straps := some t, craneNo := some k,
                                                               nodeState := .config } } u)
  ∧ (∀ (s : State) (t : Straps), s.rlc.nodeState = .reset → t.value.val = 0 → t.eighthTied = false →
      ∃ u, exec (.resetRelease t) s = .next u
        ∧ HandOnFrame { s with now := 0, rlc := { s.rlc with straps := some t, craneNo := none, nodeState := .fault,
                                                             lastFault := .noNumber, joinDue := none,
                                                             joinEnd := none, resumeEnd := none,
                                                             beaconDue := none, profileDue := none } } u)
  ∧ ∀ s u : State, step s = .next u → (∀ t, s.pending.head? ≠ some (.resetRelease t)) →
      (∀ t, s.pending.head? ≠ some (.restart t)) → s.pending.head? ≠ some .powerOn →
      s.pending.head? ≠ some .resetPinAssert → u.rlc.straps = s.rlc.straps ∧ u.rlc.craneNo = s.rlc.craneNo

/-- Line access (R2, R3): a busy line suspends the head frame's wait with the backoff it drew and an idle line counts
it again; at the end of the wait the frame goes out as its bytes; a failed first or second attempt keeps the frame and
draws a new backoff of 0 to 15 slots, a failed third one drops and counts it; a success clears LINE_TX_FAIL and starts
its count anew. A PROFILE, BEACON or other frame left at the head begins its own wait. -/
def Obligations.LineAccessOfTheHeadFrame : Prop :=
  (∀ s : State, ∃ u, exec .lineBusy s = .next u
      ∧ u = { s with rlc := { s.rlc with lineBusy := true, access := u.rlc.access } }
      ∧ (∀ b, s.rlc.access = .counting b → u.rlc.access = .suspended b)
      ∧ ((∀ b, s.rlc.access ≠ .counting b) → u.rlc.access = s.rlc.access))
  ∧ (∀ s : State, ∃ u, exec .lineIdle s = .next u
      ∧ u = { s with rlc := { s.rlc with lineBusy := false, access := u.rlc.access } }
      ∧ (∀ b, s.rlc.access = .suspended b → u.rlc.access = .counting b)
      ∧ ((∀ b, s.rlc.access ≠ .suspended b) → u.rlc.access = s.rlc.access))
  ∧ (∀ (s : State) (b : Nat) (i : TxItem) (rest : List TxItem), s.rlc.access = .counting b →
      s.rlc.queue = i :: rest →
        exec .txWaitExpiry s = .next
          { s with rlc := { s.rlc with access := .sending, wire := Codec.encode (ownFrame s (fillItem s i)) } })
  ∧ (∀ s : State, s.rlc.access = .sending → s.rlc.queue ≠ [] → s.rlc.attempts < 2 →
      ∃ b, b ≤ 15 ∧ exec .txBitMismatch s = .next
        { s with draws := s.draws + 1,
                 rlc := { s.rlc with attempts := s.rlc.attempts + 1, wire := [],
                                     access := if s.rlc.lineBusy then .suspended b else .counting b } })
  ∧ (∀ s : State, s.rlc.access = .sending → 2 ≤ s.rlc.attempts →
      ∃ u, exec .txBitMismatch s = .next u
        ∧ u = { s with draws := u.draws,
                       rlc := { s.rlc with queue := s.rlc.queue.drop 1, attempts := 0, wire := [],
                                           access := u.rlc.access, txDropped := min 65535 (s.rlc.txDropped + 1) } }
        ∧ (s.rlc.queue.length ≤ 1 → u.rlc.access = .none)
        ∧ (2 ≤ s.rlc.queue.length → ∃ b, b ≤ 15
            ∧ u.rlc.access = if s.rlc.lineBusy then .suspended b else .counting b))
  ∧ ∀ s : State, s.rlc.access = .sending →
      ∃ u, exec .txFrameEnd s = .next u
        ∧ u = { s with draws := u.draws,
                       rlc := { s.rlc with queue := s.rlc.queue.drop 1, attempts := 0, wire := [],
                                           access := u.rlc.access, txSince := s.now, txFail := false } }
        ∧ (s.rlc.queue.length ≤ 1 → u.rlc.access = .none)
        ∧ (2 ≤ s.rlc.queue.length → ∃ b, b ≤ 15
            ∧ u.rlc.access = if s.rlc.lineBusy then .suspended b else .counting b)

/-- What is not usable is discarded and counted, and changes nothing else: bytes that are no frame and frames that
break R219 in RX_BAD (R5), a bad converter word in LC_BAD (R126), a crane port frame with a wrong CRC and a POSITION
frame of a payload that is not 23 bytes or with an unlisted grip state in CP_BAD (R199, R207, R219; a frame too short
for a header counts there too, log entry 8), a frame that meets a full request buffer in CP_OVERRUN (R200). A good
crane port frame joins the buffer: as the request that its payload spells, or to be answered BAD_ARG, with
UNKNOWN_KIND where its kind is no request kind, else with LENGTH where the payload is not of the header's length or
not well formed for its kind (R199, R219; the request is an operand, log entry 8). A usable POSITION frame comes by
POSITION_SAMPLE and changes nothing here (the model's choice, log entry 2). -/
def Obligations.BadInputIsCountedAlone : Prop :=
  (∀ (s : State) (bytes : List Byte), s.rlc.nodeState ≠ .reset → Codec.decode bytes = none →
      exec (.runwayFrameBad bytes) s = .next { s with rlc := { s.rlc with rxBad := min 65535 (s.rlc.rxBad + 1) } })
  ∧ (∀ s : State, s.rlc.nodeState ≠ .reset →
      exec .loadCellBadWord s = .next { s with lcp := { s.lcp with bad := min 65535 (s.lcp.bad + 1) } })
  ∧ ∀ (s : State) (f : CpFrame), s.rlc.nodeState ≠ .reset →
    let c : Instr := .cpFrameReceived f
    let joins (b : BufFrame) : Prop := exec c s = .next { s with cpt := { s.cpt with reqBuf := s.cpt.reqBuf ++ [b] } }
    (Codec.openPort f.bytes = none →
      exec c s = .next { s with cpt := { s.cpt with cpBad := min 65535 (s.cpt.cpBad + 1) } })
    ∧ ∀ h, Codec.openPort f.bytes = some h →
      (h.kind = 32 →
          let usable : Prop := ∃ p g, Codec.decodePosition f.bytes = some p ∧ Codec.gripOf p.gripCode = some g
          (usable → exec c s = .next s)
            ∧ (¬ usable → exec c s = .next { s with cpt := { s.cpt with cpBad := min 65535 (s.cpt.cpBad + 1) } }))
      ∧ (h.kind ≠ 32 → 4 ≤ s.cpt.reqBuf.length →
          exec c s = .next { s with cpt := { s.cpt with cpOverrun := min 65535 (s.cpt.cpOverrun + 1) } })
      ∧ (h.kind ≠ 32 → s.cpt.reqBuf.length < 4 →
          (h.kind = 0 ∨ 25 ≤ h.kind → joins (.bad h.seq (.unknown h.kind) .unknownKind))
          ∧ ∀ k, Codec.reqCode k = h.kind →
              (∀ r, f.request = some r → reqKind r = k → h.payload.length = h.length →
                joins (.request { seq := h.seq, payload := h.payload } r))
              ∧ (f.request = none ∨ (∃ r, f.request = some r ∧ reqKind r ≠ k) ∨ h.payload.length ≠ h.length →
                  joins (.bad h.seq (.known k) .length)))

/-- A frame of the own number with another serial (R19, R20): in JOINING a JOIN, WELCOME or BEACON, and in RUNNING,
RESUMING and PARKED a BEACON, fault the node with DUPLICATE_NUMBER; a JOIN in CONFIG, RUNNING, RESUMING and PARKED and
a BEACON in CONFIG are only reported, once for each serial; every other such frame, and every one in FAULT, has no
effect. On the fault (R24, R93, R161, R197) the timers stop, the active order ends FAILED NODE_FAULT, the waiting
orders and the claims stay but for their holders, every truck request and every conflict ends, the permits are 0, and
of the transmit queue a BEACON alone stays, to which a BEACON, the repeats that go with it and, from JOINING, a
PROFILE are added. -/
def Obligations.DuplicateNumberEvidence : Prop :=
  ∀ (s : State) (f : Frame), s.rlc.craneNo = some f.sender → f.serial ≠ s.serial → Codec.frameOk f = true →
    s.rlc.nodeState ≠ .reset →
    let st := s.rlc.nodeState
    let c := rxCommand f
    let freed (l : List OwnClaim) : List OwnClaim := l.map fun k => { k with holders := [] }
    (¬ faultsNode st f.body → ¬ onlyReported st f.body → Settles c s s)
    ∧ (onlyReported st f.body → Settles c s (if f.serial ∈ s.rlc.dupSeen then s
        else State.emit { s with rlc := { s.rlc with dupSeen := s.rlc.dupSeen ++ [f.serial] } } (.duplicateSeen f.serial)))
    ∧ (faultsNode st f.body → ∃ v, Settles c s v
        ∧ (s.work = [] → ClaimsOk s.clu → exec c s = .next { v with work := [] })
        ∧ v.now = s.now ∧ v.serial = s.serial ∧ v.ptb = s.ptb ∧ v.smu = s.smu ∧ v.lcp = s.lcp ∧ v.pending = s.pending
        ∧ v.cpt = { s.cpt with out := v.cpt.out, lost := v.cpt.lost, dropped := v.cpt.dropped }
        ∧ v.wgu = { s.wgu with session := v.wgu.session }
        ∧ v.tbu = { s.tbu with requests := PerBay.all none }
        ∧ v.epu.record.permits = zeroPermits .state
        ∧ freed v.clu.claims = freed s.clu.claims ∧ v.clu.conflicts = [] ∧ v.clu.doubleHeld = s.clu.doubleHeld
        ∧ v.moc.active = none ∧ v.moc.waiting = s.moc.waiting
        ∧ (s.moc.active = none → v.moc = s.moc)
        ∧ (∀ a, s.moc.active = some a → OrderEnded v a (.failed .nodeFault)
            ∧ v.moc.untracked = if s.wgu.loadClass = .empty then s.moc.untracked else some .orderEnd)
        ∧ v.rlc.nodeState = .fault ∧ v.rlc.lastFault = .duplicateNumber
        ∧ v.rlc.straps = s.rlc.straps ∧ v.rlc.craneNo = s.rlc.craneNo
        ∧ v.rlc.joinDue = none ∧ v.rlc.joinEnd = none ∧ v.rlc.resumeEnd = none
        ∧ v.rlc.beaconDue = some (s.now + 1000)
        ∧ .beacon ∈ v.rlc.queue
        ∧ (st = .joining → .beacon ∉ s.rlc.queue → s.rlc.notices.length ≤ 8 →
            .profile ∈ v.rlc.queue ∧ v.rlc.profileDue = some (s.now + 5000))
        ∧ ∀ i ∈ v.rlc.queue, i = .beacon ∨ (i = .profile ∧ st = .joining)
            ∨ (∃ w ∈ s.rlc.notices, i = .fixed (.notice w.notice))
            ∨ ∃ b, 1 ≤ b ∧ b ≤ 4 ∧ (s.rlc.truckWin.get b).isSome = true
                ∧ i = .fixed (.truckState b (s.tbu.trucks.get b).version (s.tbu.trucks.get b).content))

/-- A JOIN from a number without a record creates a LIVE record in JOINING with the JOIN's pattern and x (R31), while
the table has room; with 7 records it creates none, and PEER_TABLE_FULL is reported once (R29). From a known peer
another pattern resets its record, and the same one sets its state and position anew and restarts its silence timer
(R32); from another serial a new record takes the place of the old (R33); both keep the truck versions. In RUNNING and
PARKED a pattern not yet answered gets a WELCOME within 50 ms and a PROFILE within 100 ms, in RESUMING a PROFILE
alone; of each number only the pattern last answered is remembered (R8, R10). That each JOIN adds delays of its own
beside those still pending is the model's choice (log entry 14). -/
def Obligations.JoinMakesOrResetsARecord : Prop :=
  ∀ (s : State) (n serial pattern : Nat) (x : Int), Routed s n serial (.join pattern x) →
    (∀ g, s.cpt.image = some g → 0 ≤ g.runway) →
    let cx := match s.cpt.image with
      | none => x
      | some g => max 0 (min g.runway x)
    let made (versions : PerBay Nat) : Peer :=
      { n := n, serial := serial, nodeState := some .joining, pattern := some pattern, valid := true, x := cx, vx := 0,
        age := 0, arrival := s.now, loadClass := none, noticeSeq := none, profile := none, liveness := .live,
        heard := s.now, cleared := false, claims := [], versions := versions, outOfField := decide (cx ≠ x) }
    let st := s.rlc.nodeState
    let told : Prop := (n, pattern) ∈ s.rlc.welcomed
    let profile (u : State) : Prop := ∃ d, s.now ≤ d ∧ d ≤ s.now + 100 ∧ u.rlc.profileDelays = s.rlc.profileDelays ++ [d]
    let rest (u : State) : Prop :=
      (∀ m, m ≠ n → peerAt u.ptb m = peerAt s.ptb m)
        ∧ (¬ told → st = .running ∨ st = .parked →
            (∀ k, (n, k) ∈ u.rlc.welcomed ↔ k = pattern) ∧ (∀ w, w.1 ≠ n → (w ∈ u.rlc.welcomed ↔ w ∈ s.rlc.welcomed))
              ∧ (∃ d, s.now ≤ d ∧ d ≤ s.now + 50
                  ∧ u.rlc.welcomeDelays = s.rlc.welcomeDelays ++ [{ due := d, pattern := pattern, joiner := n }])
              ∧ profile u)
        ∧ (¬ told → st = .resuming →
            u.rlc.welcomed = s.rlc.welcomed ∧ u.rlc.welcomeDelays = s.rlc.welcomeDelays ∧ profile u)
        ∧ (told ∨ (st ≠ .running ∧ st ≠ .parked ∧ st ≠ .resuming) →
            u.rlc.welcomed = s.rlc.welcomed ∧ u.rlc.welcomeDelays = s.rlc.welcomeDelays
              ∧ u.rlc.profileDelays = s.rlc.profileDelays)
        ∧ HandOnFrame { s with ptb := u.ptb, rlc := { s.rlc with
            welcomed := u.rlc.welcomed, welcomeDelays := u.rlc.welcomeDelays,
            profileDelays := u.rlc.profileDelays } } u
    (peerAt s.ptb n = none → s.ptb.peers.length < 7 →
        ∃ u, exec (.rxJoin n serial pattern x) s = .next u
          ∧ peerAt u.ptb n = some (made (PerBay.all 0)) ∧ rest u ∧ Reports s u (.peerNew n serial))
      ∧ (peerAt s.ptb n = none → 7 ≤ s.ptb.peers.length →
        ∃ u, exec (.rxJoin n serial pattern x) s = .next u ∧ u.ptb = { s.ptb with fullTold := true } ∧ rest u
          ∧ (s.ptb.fullTold = false → Reports s u .peerTableFull))
      ∧ (∀ p, peerAt s.ptb n = some p → p.serial = serial → p.pattern = some pattern →
          ∃ u, exec (.rxJoin n serial pattern x) s = .next u ∧ rest u
            ∧ peerAt u.ptb n = some { p with
                nodeState := some .joining, valid := true, x := cx, vx := 0, age := 0, arrival := s.now,
                liveness := .live, heard := s.now, cleared := p.cleared && p.liveness != .lost,
                outOfField := decide (cx ≠ x) })
      ∧ ∀ p, peerAt s.ptb n = some p → (p.serial ≠ serial ∨ p.pattern ≠ some pattern) →
          ∃ u, exec (.rxJoin n serial pattern x) s = .next u
            ∧ peerAt u.ptb n = some (made p.versions) ∧ rest u
            ∧ (p.serial ≠ serial → Reports s u (.peerReplaced n serial))
            ∧ (p.serial = serial → Reports s u (.peerRestarted n))

/-- A BEACON sets its sender's record as stated, x and vx clamped, replaces its claims copy whole by the BEACON's
entries, stamped with the time of receipt, and makes it LIVE (R34, R37); for each bay it keeps the highest version
offered, its own or that of an entry on the bay's zone (R41): the record of a known peer, which keeps pattern, profile
and truck versions; a new one for a number without a record, while the table has room (R31, R29); for another serial
one that takes the place of the old and keeps its truck versions (R33). Then, but not in CONFIG, its notice sequence
is checked against the last one applied of its sender and serial: behind it MAP_RESYNC, and from 4 on MAP_GAP, more
than 3 ahead MAP_GAP, and the tracking moves to 3 before the sequence, or to none (R42, R44). -/
def Obligations.BeaconUpdatesItsRecord : Prop :=
  ∀ (s : State) (n serial : Nat) (b : Beacon), Routed s n serial (.beacon b) →
    (∀ g, s.cpt.image = some g → 0 ≤ g.runway) →
    let k := b.noticeSeq
    let last : Nat := match trackAt s.smu n with
      | none => 0
      | some t => if t.serial = serial then t.last.getD 0 else 0
    let ahead : Nat := if last = 0 then k else if last ≤ k then k - last else k + 65535 - last
    let behind : Prop := (k = 0 ∧ last ≠ 0) ∨ (k ≠ 0 ∧ 32768 ≤ ahead)
    let three : Nat := if 4 ≤ k then k - 3 else k + 65532
    let checked (u : State) : Prop :=
      (s.rlc.nodeState = .config → u.smu = s.smu)
        ∧ (s.rlc.nodeState ≠ .config →
            u.smu.slots = s.smu.slots ∧ (∀ m, m ≠ n → trackAt u.smu m = trackAt s.smu m)
              ∧ ∃ t, trackAt u.smu n = some t ∧ t.serial = serial
                ∧ (behind → Reports s u (.mapResync n k))
                ∧ (behind → k ≤ 3 → t.last = none)
                ∧ (behind → 4 ≤ k → t.last = some three ∧ Reports s u (.mapGap n 0 k))
                ∧ (¬ behind → ahead ≤ 3 → t.last.getD 0 = last)
                ∧ (¬ behind → 4 ≤ ahead → t.last = some three ∧ Reports s u (.mapGap n last k)))
    let rest (u : State) : Prop :=
      (∀ m, m ≠ n → peerAt u.ptb m = peerAt s.ptb m) ∧ checked u
        ∧ HandOnFrame { s with ptb := u.ptb, smu := u.smu } u
    let stated (u : State) (q : Peer) (pattern : Option Nat) (profile : Option Profile) (old : PerBay Nat)
        (cleared : Bool) : Prop :=
      peerAt u.ptb n = some q ∧ q.serial = serial ∧ q.pattern = pattern ∧ q.profile = profile ∧ q.cleared = cleared
        ∧ q.nodeState = some b.state ∧ q.valid = b.valid ∧ q.age = b.age ∧ q.arrival = s.now ∧ q.heard = s.now
        ∧ q.liveness = .live ∧ q.loadClass = some b.loadClass ∧ q.noticeSeq = some k
        ∧ q.vx = max (-4000) (min 4000 b.vx)
        ∧ q.x = (match s.cpt.image with
            | none => b.x
            | some g => max 0 (min g.runway b.x))
        ∧ q.outOfField = decide (q.x ≠ b.x ∨ q.vx ≠ b.vx)
        ∧ q.claims = b.claims.map (fun e =>
            { target := e.target, held := e.held, prio := e.prio, stated := s.now : CopyEntry })
        ∧ (∀ bay, old.get bay ≤ q.versions.get bay)
        ∧ (∀ e ∈ b.claims, ∀ img v bay, s.cpt.image = some img → e.version = some v →
            targetBay img e.target = some bay → 1 ≤ bay → bay ≤ 4 → v ≤ q.versions.get bay)
        ∧ (∀ bay, 1 ≤ bay → bay ≤ 4 → q.versions.get bay = old.get bay ∨ ∃ e ∈ b.claims, ∃ img, s.cpt.image = some img
            ∧ e.version = some (q.versions.get bay) ∧ targetBay img e.target = some bay)
        ∧ rest u
    (∀ p, peerAt s.ptb n = some p → p.serial = serial → ∃ u q, exec (.rxBeacon n serial b) s = .next u
        ∧ stated u q p.pattern p.profile p.versions (p.cleared && p.liveness != .lost))
      ∧ (∀ p, peerAt s.ptb n = some p → p.serial ≠ serial → ∃ u q, exec (.rxBeacon n serial b) s = .next u
        ∧ stated u q none none p.versions false ∧ Reports s u (.peerReplaced n serial))
      ∧ (peerAt s.ptb n = none → s.ptb.peers.length < 7 → ∃ u q, exec (.rxBeacon n serial b) s = .next u
        ∧ stated u q none none (PerBay.all 0) false ∧ Reports s u (.peerNew n serial))
      ∧ (peerAt s.ptb n = none → 7 ≤ s.ptb.peers.length → ∃ u, exec (.rxBeacon n serial b) s = .next u
        ∧ u.ptb = { s.ptb with fullTold := true } ∧ rest u ∧ (s.ptb.fullTold = false → Reports s u .peerTableFull))

/-- A PROFILE from a known peer replaces its record's profile whole where every value is in range, or while no image
is validated, and otherwise leaves it; in both cases it restarts the silence timer (R35). From a number without a
record it creates one, while the table has room, and with 7 records none (R31, R29); from another serial a new record
takes the place of the old and keeps its truck versions (R33). A profile out of range is reported. -/
def Obligations.ProfileIsTakenInRange : Prop :=
  ∀ (s : State) (n serial : Nat) (f : Profile), Routed s n serial (.profile f) →
    let good : Prop := s.cpt.image = none ∨ profileInRange f = true
    let taken (old : Option Profile) : Option Profile :=
      if s.cpt.image = none ∨ profileInRange f = true then some f else old
    let ends (p : Peer) : Prop := ∃ u, exec (.rxProfile n serial f) s = .next u
      ∧ peerAt u.ptb n = some p ∧ (∀ m, m ≠ n → peerAt u.ptb m = peerAt s.ptb m) ∧ HandOnFrame { s with ptb := u.ptb } u
      ∧ (¬ good → Reports s u (.peerProfileBad n))
    (∀ p, peerAt s.ptb n = some p → p.serial = serial →
        ends { p with profile := taken p.profile, liveness := .live, heard := s.now,
                      cleared := p.cleared && p.liveness != .lost })
      ∧ (∀ p, peerAt s.ptb n = some p → p.serial ≠ serial →
        ends { Peer.fresh n serial s.now with profile := taken none, versions := p.versions })
      ∧ (peerAt s.ptb n = none → s.ptb.peers.length < 7 →
        ends { Peer.fresh n serial s.now with profile := taken none })
      ∧ (peerAt s.ptb n = none → 7 ≤ s.ptb.peers.length → ∃ u, exec (.rxProfile n serial f) s = .next u
        ∧ u.ptb = { s.ptb with fullTold := true } ∧ HandOnFrame { s with ptb := u.ptb } u)

/-- A CLAIM from a known peer sets the entry for its target to ASKING at its priority, or adds one while the copy
holds fewer than 6; a RELEASE removes the entry for its target; both restart the silence timer (R40, R38). From an
unknown sender neither changes anything (R31, R33). A WELCOME restarts the silence timer of its sender's record, and
confirms the join where the node is JOINING and its pattern and joiner number are the node's own (R18, R38). -/
def Obligations.ClaimReleaseAndWelcomeReachTheRecord : Prop :=
  (∀ (s : State) (n serial prio : Nat) (t : Target),
     (Routed s n serial (.claim t prio) →
       (∀ p, peerAt s.ptb n = some p → p.serial = serial →
         ∃ u q, exec (.rxClaim n serial t prio) s = .next u ∧ peerAt u.ptb n = some q
           ∧ (∀ m, m ≠ n → peerAt u.ptb m = peerAt s.ptb m) ∧ HandOnFrame { s with ptb := u.ptb } u
           ∧ q = { p with claims := q.claims, liveness := .live, heard := s.now,
                          cleared := p.cleared && p.liveness != .lost }
           ∧ ((∃ e ∈ p.claims, e.target = t) → q.claims = p.claims.map fun e =>
               if e.target = t then { e with held := false, prio := prio, stated := s.now } else e)
           ∧ ((∀ e ∈ p.claims, e.target ≠ t) → p.claims.length < 6 →
               q.claims = p.claims ++ [{ target := t, held := false, prio := prio, stated := s.now }])
           ∧ ((∀ e ∈ p.claims, e.target ≠ t) → 6 ≤ p.claims.length → q.claims = p.claims))
       ∧ ((∀ p, peerAt s.ptb n = some p → p.serial ≠ serial) →
           Settles (.rxClaim n serial t prio) s s))
     ∧ (Routed s n serial (.release t) →
       (∀ p, peerAt s.ptb n = some p → p.serial = serial →
         ∃ u, exec (.rxRelease n serial t) s = .next u
           ∧ peerAt u.ptb n = some { p with claims := p.claims.filter (fun e => e.target != t), liveness := .live,
                                            heard := s.now, cleared := p.cleared && p.liveness != .lost }
           ∧ (∀ m, m ≠ n → peerAt u.ptb m = peerAt s.ptb m) ∧ HandOnFrame { s with ptb := u.ptb } u)
       ∧ ((∀ p, peerAt s.ptb n = some p → p.serial ≠ serial) →
           Settles (.rxRelease n serial t) s s)))
  ∧ ∀ (s : State) (n serial pattern joiner : Nat), Routed s n serial (.welcome pattern joiner) →
      ∃ u, exec (.rxWelcome n serial pattern joiner) s = .next u
        ∧ HandOnFrame { s with ptb := u.ptb, rlc := { s.rlc with joinConfirmed := u.rlc.joinConfirmed } } u
        ∧ (s.rlc.nodeState = .joining → s.rlc.pattern = some pattern → s.rlc.craneNo = some joiner →
            u.rlc.joinConfirmed = true)
        ∧ (¬(s.rlc.nodeState = .joining ∧ s.rlc.pattern = some pattern ∧ s.rlc.craneNo = some joiner) →
            u.rlc.joinConfirmed = s.rlc.joinConfirmed)
        ∧ (∀ p, peerAt s.ptb n = some p → p.serial = serial →
            peerAt u.ptb n = some { p with liveness := .live, heard := s.now,
                                           cleared := p.cleared && p.liveness != .lost })
        ∧ (∀ m, m ≠ n → peerAt u.ptb m = peerAt s.ptb m)
        ∧ ((∀ p, peerAt s.ptb n = some p → p.serial ≠ serial) → u.ptb = s.ptb)

/-- In RUNNING the own claims follow the peers' copies (R81, R83, R87): once a copy has changed by a CLAIM, a RELEASE
or a BEACON of a known peer, or by a peer's becoming LOST, an ASKING entry on whose target a better peer claim now
stands enters WAITING with a RELEASE queued, a WAITING one with none better is asked again with a CLAIM queued and its
settle counted anew, and every other entry that is not HELD stays. The state stated is the one in which the hand-ons
still stand to be served; the clock of PEER_LOST is the model's choice (log entry 1). -/
def Obligations.ClaimsYieldAndAreAskedAgain : Prop :=
  let moved (u : State) (c : OwnClaim) : OwnClaim :=
    match c.state, betterClaim u c.target c.prio with
    | .asking, true => { c with state := .waiting }
    | .waiting, false => { c with state := .asking, askedAt := u.now }
    | _, _ => c
  let follows (s u : State) (c : OwnClaim) : Prop :=
    let d := moved u c
    findClaim u c.target = some d
      ∧ (d.state ≠ c.state → Reports s u (.claimState c.target (some d.state)))
      ∧ (s.rlc.queue.length ≤ 10 → c.state = .asking → d.state = .waiting → .fixed (.release c.target) ∈ u.rlc.queue)
      ∧ (s.rlc.queue.length ≤ 10 → c.state = .waiting → d.state = .asking →
          .fixed (.claim c.target c.prio) ∈ u.rlc.queue)
  let one (s u : State) (p : Peer) (t : Target) : Prop :=
    HandOnFrame { s with ptb := u.ptb } u
      ∧ (∀ c ∈ s.clu.claims, c.state ≠ .held → (c.target = t ∨ p.liveness ≠ .live) → follows s u c)
      ∧ (∀ c ∈ s.clu.claims, c.target ≠ t → p.liveness = .live → findClaim u c.target = some c)
  ∀ (s : State) (n : Nat) (p : Peer), s.rlc.nodeState = .running → ClaimsOk s.clu → peerAt s.ptb n = some p →
    (∀ t prio, Routed s n p.serial (.claim t prio) →
      ∃ u, exec (.rxClaim n p.serial t prio) s = .next (State.finish u) ∧ one s u p t)
    ∧ (∀ t, Routed s n p.serial (.release t) →
      ∃ u, exec (.rxRelease n p.serial t) s = .next (State.finish u) ∧ one s u p t)
    ∧ (∀ b, Routed s n p.serial (.beacon b) →
      ∃ u, exec (.rxBeacon n p.serial b) s = .next (State.finish u)
        ∧ HandOnFrame { s with ptb := u.ptb, smu := u.smu } u ∧ ∀ c ∈ s.clu.claims, c.state ≠ .held → follows s u c)
    ∧ (p.liveness = .stale →
      ∃ u, exec (.peerLost n) s = .next (State.finish u) ∧ HandOnFrame { s with now := u.now, ptb := u.ptb } u
        ∧ ∀ c ∈ s.clu.claims, c.state ≠ .held → follows s u c)

/-- A NOTICE not in CONFIG: its sequence, ahead of the last applied one of its sender and serial, becomes the last
applied and the notice is applied to the record of its slot by its kind; a repeat, one behind and one of sequence 0
change no record (R43, R109, R110). -/
def Obligations.NoticeIsAppliedWhenAhead : Prop :=
  ∀ (s : State) (n serial : Nat) (k : Notice), Routed s n serial (.notice k) → s.rlc.nodeState ≠ .config →
    let last : Nat := match trackAt s.smu n with
      | none => 0
      | some t => if t.serial = serial then t.last.getD 0 else 0
    let ahead : Nat := if last = 0 then k.seq else if last ≤ k.seq then k.seq - last else k.seq + 65535 - last
    ∃ u, exec (.rxNotice n serial k) s = .next u
      ∧ HandOnFrame { s with ptb := u.ptb, smu := u.smu } u
      ∧ (∀ m, m ≠ n → trackAt u.smu m = trackAt s.smu m)
      ∧ (k.seq = 0 ∨ k.seq = last ∨ 32768 ≤ ahead → u.smu.slots = s.smu.slots
          ∧ ∃ t, trackAt u.smu n = some t ∧ t.serial = serial ∧ t.last.getD 0 = last)
      ∧ (1 ≤ k.seq → k.seq ≠ last → ahead < 32768 →
          trackAt u.smu n = some { n := n, serial := serial, last := some k.seq }
            ∧ (s.cpt.image = none ∨ slotRec s.smu k.slot = none → u.smu.slots = s.smu.slots)
            ∧ ∀ img r, s.cpt.image = some img → slotRec s.smu k.slot = some r →
                let c := keepCoil img k.coil
                (∀ id, id ≠ k.slot → slotRec u.smu id = slotRec s.smu id)
                  ∧ ∃ q, slotRec u.smu k.slot = some q
                    ∧ (k.kind = .setBlock → q = { r with blocked := true })
                    ∧ (k.kind = .clearBlock → q = { r with blocked := false })
                    ∧ (k.kind ≠ .setBlock → k.kind ≠ .clearBlock →
                        q.blocked = r.blocked ∧ q.source = some (.peer n))
                    ∧ (k.kind = .foundEmpty → q.content = .empty ∧ q.coil = {} ∧ q.disputed = false)
                    ∧ (k.kind = .foundOccupied → q.content = .occupied ∧ q.coil = {} ∧ q.disputed = false)
                    ∧ (k.kind = .place → q.content = .occupied ∧ q.coil = c
                        ∧ (q.disputed = true ↔ r.disputed = true ∨ r.content = .occupied))
                    ∧ (k.kind = .pick → q.content = .empty ∧ q.coil = {}
                        ∧ (q.disputed = true ↔ r.disputed = true ∨ r.content = .empty
                            ∨ r.content = .occupied ∧ ∃ a b, r.coil.id = some a ∧ c.id = some b ∧ a ≠ b)))

/-- A TRUCK_STATE not in CONFIG, for a bay of the own zone table without a pending request: content that passes R153
and a version above the own one replace the record whole; otherwise the record stays, and equal versions with another
content raise the required version past them. Where the record is replaced the required version first becomes at least
the highest version seen. The version is offered to the sender's record (R41, R163, R164). -/
def Obligations.PeerTruckRecordIsTakenWhenNewer : Prop :=
  ∀ (s : State) (n serial bay version : Nat) (c : TruckContent) (img : Image) (zn : Zone),
    Routed s n serial (.truckState bay version c) → s.rlc.nodeState ≠ .config → s.cpt.image = some img →
    bayZone img bay = some zn → s.tbu.requests.get bay = none →
      let own := s.tbu.trucks.get bay
      ∃ u, exec (.rxTruckState n serial bay version c) s = .next u
        ∧ HandOnFrame { s with ptb := u.ptb } u
        ∧ (∀ p, peerAt s.ptb n = some p → p.serial = serial → ∃ q, peerAt u.ptb n = some q
            ∧ q = { p with versions := q.versions, heard := s.now, liveness := .live,
                           cleared := p.cleared && p.liveness != .lost }
            ∧ q.versions.get bay = max (p.versions.get bay) version)
        ∧ (stateFail img zn c = none → own.version < version →
            u.tbu.trucks.get bay = { version := version, content := c })
        ∧ (stateFail img zn c = none → own.version < version → 1 ≤ bay → bay ≤ 4 →
            u.tbu.required.get bay = max (s.tbu.required.get bay) (highestSeen u.ptb bay))
        ∧ (stateFail img zn c ≠ none ∨ version ≤ own.version → u.tbu.trucks.get bay = own)
        ∧ (stateFail img zn c = none → version = own.version → c ≠ own.content →
            version + 1 ≤ u.tbu.required.get bay)
        ∧ ∀ b, 1 ≤ b → b ≤ 4 → b ≠ bay → s.tbu.requests.get b = none →
            u.tbu.trucks.get b = s.tbu.trucks.get b

/-! ## Timers -/

/-- The schedules of the line (R7 to R10, R12, R13, R18): a BEACON goes out with the repeats of notices and truck
records and starts an interval of 100 to 120 ms in RUNNING and RESUMING, else of 1,000 ms; a PROFILE starts one of
5,000 ms; a delayed PROFILE or WELCOME goes out at its delay's end in the states that send it; a JOIN is repeated 200
ms after the last. The model's choices: at each expiry the clock moves on to the timer's moment (log entry 1), the
repeats go out behind the BEACON, notices first (log entry 34), and of several delays the earliest is served, and
dropped in a state that does not send (log entry 14). -/
def Obligations.LineSchedulesQueueTheirFrames : Prop :=
  let sends (s : State) : Prop := s.rlc.nodeState = .running ∨ s.rlc.nodeState = .resuming
    ∨ s.rlc.nodeState = .parked ∨ s.rlc.nodeState = .fault
  let room (s : State) (i : TxItem) : Prop := s.rlc.queue.length < 16 ∨ (isRefilled i = true ∧ i ∈ waitingFrames s.rlc)
  let queued (s u : State) (now : Nat) : State := { s with
    now := now, draws := u.draws,
    rlc := { s.rlc with queue := u.rlc.queue, access := u.rlc.access, attempts := u.rlc.attempts, wire := u.rlc.wire,
                        txDropped := u.rlc.txDropped } }
  (∀ (s : State) (t : Nat), s.rlc.beaconDue = some t → sends s →
    ∃ u, exec .beaconTimerExpiry s = .next u
      ∧ (let v := queued s u (max s.now t)
         u = { v with rlc := { v.rlc with beaconDue := u.rlc.beaconDue, notices := u.rlc.notices,
                                          truckWin := u.rlc.truckWin } })
      ∧ (∃ d, u.rlc.beaconDue = some d
          ∧ (s.rlc.nodeState = .running ∨ s.rlc.nodeState = .resuming → u.now + 100 ≤ d ∧ d ≤ u.now + 120)
          ∧ (s.rlc.nodeState = .parked ∨ s.rlc.nodeState = .fault → d = u.now + 1000))
      ∧ u.rlc.notices =
          (s.rlc.notices.filter fun w => decide (1 < w.left)).map (fun w => { w with left := w.left - 1 })
      ∧ (∀ bay, 1 ≤ bay → bay ≤ 4 →
          (s.rlc.truckWin.get bay = none → u.rlc.truckWin.get bay = none)
            ∧ ∀ w, s.rlc.truckWin.get bay = some w →
                u.rlc.truckWin.get bay = if w.left ≤ 1 then none else some { w with left := w.left - 1 })
      ∧ (room s .beacon → .beacon ∈ u.rlc.queue)
      ∧ (s.rlc.queue = [] → s.rlc.notices.length ≤ 8 → u.rlc.queue =
          [.beacon] ++ (s.rlc.notices.map fun w => .fixed (.notice w.notice))
            ++ ([1, 2, 3, 4].filter fun b => (s.rlc.truckWin.get b).isSome).map fun b =>
                .fixed (.truckState b (s.tbu.trucks.get b).version (s.tbu.trucks.get b).content)))
  ∧ (∀ (s : State) (t : Nat), s.rlc.profileDue = some t → sends s →
    ∃ u, exec .profileTimerExpiry s = .next u
      ∧ (let v := queued s u (max s.now t)
         u = { v with rlc := { v.rlc with profileDue := some (max s.now t + 5000) } })
      ∧ (room s .profile → .profile ∈ u.rlc.queue))
  ∧ (∀ (s : State) (t : Nat), t ∈ s.rlc.profileDelays → (∀ d ∈ s.rlc.profileDelays, t ≤ d) →
    ∃ u, exec .profileDelayExpiry s = .next u
      ∧ (let v := queued s u (max s.now t)
         u = { v with rlc := { v.rlc with profileDelays := s.rlc.profileDelays.erase t,
                                          profileDue := u.rlc.profileDue } })
      ∧ (sends s → u.rlc.profileDue = some (max s.now t + 5000) ∧ (room s .profile → .profile ∈ u.rlc.queue))
      ∧ (¬ sends s → u.rlc.profileDue = s.rlc.profileDue ∧ u.rlc.queue = s.rlc.queue))
  ∧ (∀ (s : State) (w : WelcomeDelay) (pre post : List WelcomeDelay), s.rlc.welcomeDelays = pre ++ w :: post →
      (∀ d ∈ pre, w.due < d.due) → (∀ d ∈ post, w.due ≤ d.due) →
    ∃ u, exec .welcomeDelayExpiry s = .next u
      ∧ (let v := queued s u (max s.now w.due)
         u = { v with rlc := { v.rlc with welcomeDelays := pre ++ post } })
      ∧ (s.rlc.nodeState = .running ∨ s.rlc.nodeState = .parked → s.rlc.queue.length < 16 →
          u.rlc.queue = s.rlc.queue ++ [.fixed (.welcome w.pattern w.joiner)])
      ∧ (s.rlc.nodeState ≠ .running → s.rlc.nodeState ≠ .parked → u.rlc.queue = s.rlc.queue))
  ∧ ∀ (s : State) (t p : Nat), s.rlc.nodeState = .joining → s.rlc.joinDue = some t → s.rlc.pattern = some p →
    ∃ u, exec .joinRepeatExpiry s = .next u
      ∧ (let v := queued s u (max s.now t)
         u = { v with rlc := { v.rlc with joinDue := some (max s.now t + 200) } })
      ∧ (s.rlc.queue.length < 16 → u.rlc.queue = s.rlc.queue ++ [.fixed (.join p s.sample.x)])

/-- The end of the join timer takes JOINING to RUNNING with a BEACON and a PROFILE queued; that of the resume timer
takes RESUMING to RUNNING with a PROFILE queued (R18, R23, R8). LINE_TX_FAIL is reported once, 1,000 ms after the last
successful frame in a state that sends (R4). ORDER_WAITING is reported once for each entry to a phase other than
HOLD_LOAD, 10,000 ms after it, with the cause of the phase (R196). A LIVE peer silent for more than 350 ms, in PARKED
and FAULT 3,500 ms, becomes STALE, a STALE one silent for more than 1,000 ms, in PARKED and FAULT 10,000 ms, LOST; its
record keeps every other field (R38). The model's choices: the clock moves on to the moment of the timer, for a peer 1
ms past the limit (log entry 1), a further report is no event (log entry 2), the first claim of the list that is not
HELD is the one named (log entry 44), the cause in DECIDE is NONE and a place at the target counts as in the minus and
down direction (log entry 58). -/
def Obligations.JoinResumeWaitAndSilenceTimers : Prop :=
  ((let running (s u : State) (t : Nat) : State := { s with
      now := max s.now t,
      rlc := { s.rlc with nodeState := .running, joinDue := none, joinEnd := none, resumeEnd := none,
                          profileDue := some (max s.now t + 5000), beaconDue := u.rlc.beaconDue,
                          notices := u.rlc.notices } }
    (∀ (s : State) (t : Nat), s.rlc.nodeState = .joining → s.rlc.joinEnd = some t →
      ∃ u, exec .joinTimerExpiry s = .next u ∧ HandOnFrame (running s u t) u
        ∧ (∃ d, u.rlc.beaconDue = some d ∧ u.now + 100 ≤ d ∧ d ≤ u.now + 120)
        ∧ (s.rlc.queue.length < 16 → .beacon ∈ u.rlc.queue)
        ∧ (s.rlc.queue.length ≤ 2 → s.rlc.notices.length ≤ 8 → .profile ∈ u.rlc.queue))
    ∧ ∀ (s : State) (t : Nat), s.rlc.nodeState = .resuming → s.rlc.resumeEnd = some t →
      ∃ u, exec .resumeTimerExpiry s = .next u ∧ HandOnFrame (running s u t) u
        ∧ u.rlc.beaconDue = s.rlc.beaconDue ∧ u.rlc.notices = s.rlc.notices
        ∧ (s.rlc.queue.length < 16 → .profile ∈ u.rlc.queue))
   ∧ (∀ s : State, s.rlc.txFail = false →
       (s.rlc.nodeState = .joining ∨ s.rlc.nodeState = .running ∨ s.rlc.nodeState = .resuming ∨ s.rlc.nodeState = .parked
         ∨ (s.rlc.nodeState = .fault ∧ s.rlc.lastFault = .duplicateNumber)) →
       exec .lineTxFail s = .next (State.emit
         { s with now := max s.now (s.rlc.txSince + 1000), rlc := { s.rlc with txFail := true } } .lineTxFail))
     ∧ (∀ s : State, s.rlc.txFail = true → exec .lineTxFail s = .next s)
     ∧ (∀ (s : State) (a : Active), s.moc.active = some a → a.waitTold = true → exec .orderWaiting s = .next s)
     ∧ ∀ (s : State) (a : Active), s.moc.active = some a → a.phase ≠ .holdLoad → a.waitTold = false →
       let r : State := { s with now := max s.now (a.phaseAt + 10000) }
       let p := s.epu.record.permits
       let shown (q : Permit) : WaitCause := if 0 < q.speed then .none else .permit q.cause
       ∃ c, exec .orderWaiting s = .next (State.emit
           { r with moc := { s.moc with active := some { a with waitTold := true } } } (.orderWaiting a.ord.id a.phase c))
         ∧ (a.phase = .opening → c = .grip)
         ∧ (a.phase = .decide → c = .none)
         ∧ (a.phase = .claimSource ∨ a.phase = .claimDest → a.askRefused = true → c = .claimListFull)
         ∧ (a.phase = .claimSource ∨ a.phase = .claimDest → a.askRefused = false →
             ∀ k, (s.clu.claims.find? fun k => k.holders.contains .order && k.state != .held) = some k →
               c = .claim k.target (some k.state))
         ∧ (a.phase = .toSource ∨ a.phase = .toDest ∨ a.phase = .pickLower ∨ a.phase = .lift ∨ a.phase = .placeLower
             ∨ a.phase = .clear → r.sampleStale = true → c = .staleSample)
         ∧ (a.phase = .toSource ∨ a.phase = .toDest → r.sampleStale = false →
             (50 < |s.sample.x - a.targetX| → c = shown (if s.sample.x < a.targetX then p.gantryPlus else p.gantryMinus))
               ∧ (|s.sample.x - a.targetX| ≤ 50 →
                   c = shown (if s.sample.y < a.targetY then p.trolleyPlus else p.trolleyMinus)))
         ∧ (a.phase = .pickLower ∨ a.phase = .lift ∨ a.phase = .placeLower ∨ a.phase = .clear → r.sampleStale = false →
             c = shown (if s.sample.z < a.targetZ then p.hoistUp else p.hoistDown)))
  ∧ ∀ (s : State) (n : Nat) (p : Peer), s.rlc.nodeState ≠ .reset → peerAt s.ptb n = some p →
      let slow : Bool := p.nodeState == some .parked || p.nodeState == some .fault
      (p.liveness = .live → ∃ u, exec (.peerStale n) s = .next u
        ∧ HandOnFrame { s with now := max s.now (p.heard + (if slow then 3500 else 350) + 1), ptb := u.ptb } u
        ∧ peerAt u.ptb n = some { p with liveness := .stale }
        ∧ ∀ m, m ≠ n → peerAt u.ptb m = peerAt s.ptb m)
      ∧ (p.liveness = .stale → ∃ u, exec (.peerLost n) s = .next u
        ∧ HandOnFrame { s with now := max s.now (p.heard + (if slow then 10000 else 1000) + 1), ptb := u.ptb } u
        ∧ peerAt u.ptb n = some { p with liveness := .lost }
        ∧ ∀ m, m ≠ n → peerAt u.ptb m = peerAt s.ptb m)

/-- An ASKING entry becomes HELD 300 ms after its last ask, and stays so where no peer's entry on its target is taken
as HELD (R82, R84): stated of the state in which the hand-ons still stand to be served. The refresh timer makes a
whole computation: six permits of 0 with cause STATE outside RUNNING, with cause STALE_SAMPLE with a stale sample,
else each as computed; free distances exactly with a validated image; and a PERMIT queued where it differs from the
last emitted or 50 ms have passed (R68, R70, R72). The clock moves on to the timer's moment (the model's choice, log
entry 1), and a PERMIT's stamp is taken when it is queued (log entry 16). -/
def Obligations.SettleAndRefreshTimers : Prop :=
  (∀ (s : State) (t : Target) (c : OwnClaim), s.rlc.nodeState = .running → findClaim s t = some c → c.state = .asking →
    ∃ u, exec (.settleTimerExpiry t) s = .next (State.finish u)
      ∧ HandOnFrame { s with now := max s.now (c.askedAt + 300) } u
      ∧ u.moc = s.moc ∧ u.tbu = s.tbu
      ∧ ((∀ p ∈ s.ptb.peers, ∀ e ∈ p.claims, e.target = t → p.liveness ≠ .lost ∧ e.held = false) →
          u.clu.claims = s.clu.claims.map fun d => if d.target = t then { d with state := .held } else d))
  ∧ ∀ s : State, s.rlc.nodeState ≠ .reset →
    let r : State := { s with now := max s.now (s.epu.computedAt + 50) }
    ∃ u, exec .refreshTimerExpiry s = .next u
      ∧ HandOnFrame r u ∧ u.clu = s.clu ∧ u.tbu = s.tbu ∧ u.moc = s.moc ∧ u.epu.computedAt = u.now
      ∧ u.rlc = s.rlc ∧ u.wgu = s.wgu
      ∧ (s.cpt.image = none → u.epu.record = { permits := zeroPermits .state, free := none })
      ∧ (∀ img, s.cpt.image = some img →
          let o := obstaclesOf r img
          u.epu.record.free = some (freeSet o)
            ∧ (s.rlc.nodeState ≠ .running → u.epu.record.permits = zeroPermits .state)
            ∧ (s.rlc.nodeState = .running → r.sampleStale = true → u.epu.record.permits = zeroPermits .staleSample)
            ∧ (s.rlc.nodeState = .running → r.sampleStale = false → u.epu.record.permits = computedPermits r img o))
      ∧ (s.epu.lastEmitted ≠ some u.epu.record.permits ∨ s.epu.lastEmitAt + 50 ≤ u.now →
          u.epu.lastEmitted = some u.epu.record.permits ∧ u.epu.lastEmitAt = u.now
            ∧ { stamp := u.now % 4294967296, body := .permit s.rlc.nodeState u.epu.record } ∈ u.cpt.out)

/-- In RUNNING a HELD entry on whose target a peer's claim counts as HELD too is settled (R84, R90 to R92). For a
zone: outside the own footprint it yields, and the zone of a bay opens that bay's release window of five sends (R86,
R13); else it stays HELD, and the zone is in the conflict set exactly while such a peer's footprint overlaps it too.
For a slot: while the active order lowers on it, it stays HELD and nothing is reported; else it yields to a peer that
outranks it by priority, then serial, and otherwise stays HELD with SLOT_DOUBLE_HOLD reported once for each peer while
it holds the slot (that one outranking peer among several makes it yield is the model's choice, log entry 50). Each
change of an entry is handed to its holders (R95). So it is decided at a BEACON of a known peer, at the end of the
settle timer, for zones at a taken position sample (stated without an active order), and for slots at a phase change.
The state stated is the one in which the hand-ons still stand to be served. -/
def Obligations.DoubleHoldsAreSettled : Prop :=
  let told (s u : State) (c : OwnClaim) (st : ClaimState) (left : Bool) : Prop :=
    (∀ a, s.moc.active = some a → .order ∈ c.holders → .orderClaim a.ord.id c.target st left ∈ u.work)
      ∧ ∀ bay, ownBay s c.target = some bay → .truckClaim bay ∈ u.work
  let zone (s u : State) (img : Image) (c : OwnClaim) : Prop := ∀ z zn, c.target = .zone z → zoneAt img z = some zn →
    let x := u.sample.x
    let out : Prop := (∃ p ∈ u.ptb.peers, HoldsTarget p c.target) ∧ (x + img.right < zn.x0 ∨ zn.x1 < x - img.left)
    let meets : Prop := ∃ p ∈ u.ptb.peers, HoldsTarget p c.target ∧ p.x - (peerProfile img p).left ≤ zn.x1
      ∧ zn.x0 ≤ p.x + (peerProfile img p).right
    (out → findClaim u c.target = some { c with state := .waiting } ∧ z ∉ u.clu.conflicts ∧ told s u c .waiting true
        ∧ (s.rlc.queue.length ≤ 10 → .fixed (.release c.target) ∈ u.rlc.queue)
        ∧ (∀ bay, 1 ≤ bay → bay ≤ 4 → ownBay s c.target = some bay →
            u.rlc.truckWin.get bay = some { release := true, left := 5 })
        ∧ (z ∈ s.clu.conflicts → Reports s u (.zoneConflictClear z)))
      ∧ (¬ out → findClaim u c.target = some c ∧ (z ∈ u.clu.conflicts ↔ meets)
        ∧ (z ∉ s.clu.conflicts → meets → Reports s u (.zoneConflict z))
        ∧ (z ∈ s.clu.conflicts → ¬ meets → Reports s u (.zoneConflictClear z)))
  let slot (s u : State) (c : OwnClaim) : Prop := ∀ k, c.target = .slot k →
    let holds (m : Nat) : Prop := ∃ p ∈ u.ptb.peers, HoldsTarget p c.target ∧ p.n = m
    let lowering : Prop := ∃ a, s.moc.active = some a ∧ ((a.phase = .pickLower ∧ a.ord.source = .slot k)
      ∨ (a.phase = .placeLower ∧ a.destUse = some (.slot k)))
    let outranked : Prop := ∃ p ∈ u.ptb.peers, HoldsTarget p c.target ∧ ∃ e ∈ p.claims, e.target = c.target
      ∧ (c.prio < e.prio ∨ (e.prio = c.prio ∧ p.serial < s.serial))
    (outranked → ¬ lowering → findClaim u c.target = some { c with state := .waiting } ∧ told s u c .waiting true
        ∧ (∀ m, (k, m) ∉ u.clu.doubleHeld) ∧ (s.rlc.queue.length ≤ 10 → .fixed (.release c.target) ∈ u.rlc.queue))
      ∧ (¬ outranked ∨ lowering → findClaim u c.target = some c)
      ∧ (¬ outranked → ¬ lowering → ∀ m, ((k, m) ∈ u.clu.doubleHeld ↔ holds m)
        ∧ (holds m → (k, m) ∉ s.clu.doubleHeld → Reports s u (.slotDoubleHold k m)))
      ∧ (lowering → ∀ m, (k, m) ∈ u.clu.doubleHeld ↔ (k, m) ∈ s.clu.doubleHeld ∧ holds m)
  ∀ (s : State) (img : Image), s.rlc.nodeState = .running → ClaimsOk s.clu → s.cpt.image = some img →
    (∀ n p b, peerAt s.ptb n = some p → Routed s n p.serial (.beacon b) →
      ∃ u, exec (.rxBeacon n p.serial b) s = .next (State.finish u)
        ∧ HandOnFrame { s with ptb := u.ptb, smu := u.smu } u
        ∧ ∀ c ∈ s.clu.claims, c.state = .held → zone s u img c ∧ slot s u c)
    ∧ (∀ c ∈ s.clu.claims, c.state = .asking →
      ∃ u, exec (.settleTimerExpiry c.target) s = .next (State.finish u)
        ∧ HandOnFrame { s with now := u.now } u
        ∧ told s u c .held false ∧ zone s u img { c with state := .held } ∧ slot s u { c with state := .held })
    ∧ (∀ bytes f g, TakesSample s bytes f g → s.moc.active = none →
      ∃ u, exec (.positionSample bytes) s = .next (State.finish u) ∧ u.ptb = s.ptb
        ∧ u.sample.x = clamp 0 img.runway f.x
        ∧ ∀ c ∈ s.clu.claims, c.state = .held → zone s u img c)
    ∧ ∀ c ∈ s.clu.claims, c.state = .held → slot s (serveWork s .phaseChanged) c

/-- An open session ends 8,000 ms after its opening: NO_RESULT unless it counts and its window is full, and else as
R136 classifies the window, UNSTABLE in place of STABLE; a SPAN session then locks weighing (R137, R149). A capture
completes 3,000 ms after its beginning: AUTO to READY with the average as working zero inside the zero window, else to
LOCKED(ZERO_DRIFT); VERIFY to VERIFY_ZERO_DONE with the average as working zero (R146, R148). The model's choices: the
clock moves on to the timer's moment (log entry 1), the average of a capture without a sample is a free value (log
entry 6), and the mark of log entry 37 says whether a new AUTO capture may begin at once, the class window being
emptied at each new zero. -/
def Obligations.WeighTimersEndSessionAndCapture : Prop :=
  (∀ (s : State) (img : Image) (ss : Session), s.cpt.image = some img → s.wgu.session = some ss →
    let full : Prop := ss.counting = true ∧ ss.window.length = 16
    ∃ u r, exec .sessionTimeout s = .next u
      ∧ HandOnFrame { s with now := max s.now (ss.openedAt + 8000), wgu := u.wgu } u
      ∧ u.wgu.session = none ∧ u.wgu.last = some r ∧ u.wgu.zero = s.wgu.zero ∧ u.wgu.loadClass = s.wgu.loadClass
      ∧ r.kind = ss.kind ∧ r.division = img.division
      ∧ (¬ full → r.status = .noResult ∧ r.weight = none)
      ∧ (full → ClassifiedBy img ss.window .unstable r)
      ∧ (isOrder ss = true → u.wgu.base = s.wgu.base ∧ u.wgu.capture = s.wgu.capture)
      ∧ (isOrder ss = false → s.wgu.base ≠ .locked .sensor → u.wgu.base = .locked .spanFail))
  ∧ ∀ (s : State) (img : Image) (c : Capture), s.cpt.image = some img → s.wgu.capture = some c →
    ∃ u avg, exec .captureTimerExpiry s = .next u
      ∧ HandOnFrame { s with now := max s.now (c.startedAt + 3000), wgu := u.wgu } u
      ∧ (0 < c.count → avg = roundHalfAway c.sum c.count)
      ∧ (c.count = 0 → -8388608 ≤ avg ∧ avg ≤ 8388607)
      ∧ (s.wgu.mark = true → u.wgu.capture = none) ∧ u.wgu.loadClass = s.wgu.loadClass
      ∧ (c.kind = .verify → u.wgu.base = .verifyZeroDone ∧ u.wgu.zero = avg ∧ u.wgu.window = []
          ∧ u.wgu.overCount = 0 ∧ u.wgu.capture = none)
      ∧ (c.kind = .auto → |avg - img.calibratedZero| ≤ img.zeroWindow →
          u.wgu.base = .ready ∧ u.wgu.zero = avg ∧ u.wgu.window = [] ∧ u.wgu.overCount = 0)
      ∧ (c.kind = .auto → img.zeroWindow < |avg - img.calibratedZero| →
          u.wgu.base = .locked .zeroDrift ∧ u.wgu.zero = s.wgu.zero ∧ u.wgu.capture = none)

/-- 50 ms without a good load sample lock weighing with cause SENSOR: no capture, no session, class LOADED, an empty
class window (R127). 100 ms without a taken position sample make the own sample stale: no capture goes on, and in
RUNNING all six permits are 0 with cause STALE_SAMPLE (R210, R68, R145). The clock moves on to the moment of the loss
(the model's choice, log entry 1); staleness is read off the clock, and its report made once by a field of the model's
own (log entry 24). -/
def Obligations.LossOfLoadCellAndSample : Prop :=
  (∀ s : State, s.rlc.nodeState ≠ .reset → s.wgu.base ≠ .locked .sensor →
    (s.wgu.session = none ∨ s.cpt.image ≠ none) →
    ∃ u, exec .loadCellLost s = .next u
      ∧ HandOnFrame { s with now := max s.now (s.lcp.since + 50), wgu := u.wgu } u
      ∧ u.wgu = { s.wgu with base := .locked .sensor, capture := none, session := none, loadClass := .loaded,
                             window := [], overCount := 0, mark := false, last := u.wgu.last }
      ∧ (s.wgu.session = none → u.wgu.last = s.wgu.last)
      ∧ ∀ ss, s.wgu.session = some ss → ∃ r, u.wgu.last = some r ∧ r.status = .noResult ∧ r.kind = ss.kind)
  ∧ ∀ s : State, s.rlc.nodeState ≠ .reset → s.cpt.held ≠ none → s.cpt.staleTold = false →
    ∃ u, exec .positionStale s = .next u
      ∧ HandOnFrame { s with now := max s.now (s.cpt.takenAt + 100), wgu := u.wgu,
                             cpt := { s.cpt with staleTold := true } } u
      ∧ u.sampleStale = true ∧ u.wgu.capture = none ∧ u.wgu.base = s.wgu.base
      ∧ (s.rlc.nodeState = .running → s.cpt.image ≠ none → u.epu.record.permits = zeroPermits .staleSample)

/-! ## Samples -/

/-- A good load sample is kept with its arrival, and ends a loss; with an image a sample that is not DYNAMIC joins the
class window, counts for OVERLOAD and decides the class, and a DYNAMIC one changes none of them and empties the window
of an open session (R126, R127, R129, R131, R132, R135). A class that becomes EMPTY while the untracked-load mark is
set clears it, and the place where the load was set down is reported: the lower slot under the hook, else the upper
one, else a bay position within 50 mm, else NONE (R220, R221); among several the lowest slot, bay and position (the
model's choice, log entry 26). -/
def Obligations.LoadSampleFeedsWindowCountAndClass : Prop :=
  ∀ (s : State) (raw : Int) (saturated : Bool), s.rlc.nodeState ≠ .reset →
    ∃ u, exec (.loadCellSample raw saturated) s = .next u
      ∧ u.now = s.now ∧ u.ptb = s.ptb ∧ u.pending = s.pending ∧ u.rlc.nodeState = s.rlc.nodeState
      ∧ u.lcp = { s.lcp with latest := some { raw := raw, saturated := saturated, arrival := s.now }, since := s.now }
      ∧ u.wgu.zero = s.wgu.zero
      ∧ (s.wgu.base = .locked .sensor → s.wgu.session = none → u.wgu.base = .unzeroed)
      ∧ (s.wgu.base ≠ .locked .sensor → s.cpt.image = none → u.wgu = { s.wgu with session := u.wgu.session })
      ∧ ∀ img, s.cpt.image = some img →
          let dynamic : Prop := 1500 < |s.sample.az| ∨ s.sampleStale = true
          let net := netOf img s.wgu.zero s.sample.az raw
          let isOver : Bool := if saturated then decide (s.wgu.zero < raw) else decide (img.ratedCapacity * 105 < net * 100)
          let count := if isOver then min 8 (s.wgu.overCount + 1) else 0
          (dynamic → u.wgu.window = s.wgu.window ∧ u.wgu.overCount = s.wgu.overCount
              ∧ u.wgu.loadClass = s.wgu.loadClass ∧ ∀ ss, u.wgu.session = some ss → ss.window = [])
            ∧ (¬ dynamic →
                (s.wgu.window.length < 16 → u.wgu.window = s.wgu.window ++ [net])
                  ∧ (s.wgu.window.length = 16 → u.wgu.window = s.wgu.window.drop 1 ++ [net])
                  ∧ (s.wgu.window.length ≤ 16 →
                      u.wgu.loadClass = nextClass img s.wgu.loadClass u.wgu.window count
                        ∧ u.wgu.overCount =
                          if u.wgu.loadClass = .overload ∧ s.wgu.loadClass ≠ .overload then 0 else count))
            ∧ (∀ why, s.moc.untracked = some why → s.wgu.loadClass ≠ .empty → u.wgu.loadClass = .empty → RowsFit img →
                let x := s.sample.x
                let y := s.sample.y
                let near (up : Bool) (id : Nat) : Prop := ∃ r row p q, SlotAt img id r row up p ∧ slotPlace img id = some q
                  ∧ |x - q.x| ≤ row.half ∧ |y - q.y| ≤ img.columnHalf
                let beside (bay k : Nat) : Prop := ∃ zn ready d cum loads q, 1 ≤ bay ∧ bay ≤ 4 ∧ bayZone img bay = some zn
                  ∧ (s.tbu.trucks.get bay).content = .present ready d cum loads ∧ 1 ≤ k ∧ d.positions[k - 1]? = some q
                  ∧ |x - (trailerPlace zn d.deckHeight q).x| ≤ 50 ∧ |y - (trailerPlace zn d.deckHeight q).y| ≤ 50
                let lowest (up : Bool) (id : Nat) : Prop := near up id ∧ ∀ k, near up k → id ≤ k
                ∃ place, u.moc.untracked = none ∧ Reports s u (.untrackedLoadClear x y s.sample.z place)
                  ∧ (∀ id, lowest false id → place = .slot id)
                  ∧ ((∀ id, ¬ near false id) → ∀ id, lowest true id → place = .slot id)
                  ∧ ((∀ up id, ¬ near up id) → ∀ bay k, beside bay k →
                      (∀ b j, beside b j → bay < b ∨ (bay = b ∧ k ≤ j)) → place = .position bay k)
                  ∧ ((∀ up id, ¬ near up id) → (∀ bay k, ¬ beside bay k) → place = .none))

/-- A good load sample while the load cell is not lost, in the open session and the running capture (R126, R135, R136,
R139, R145, R149). One that is not DYNAMIC joins the window of a session that counts, the oldest of 16 leaving; the
session ends where its 16 nets then lie within 2 divisions, with the weight that R136 gives and status STABLE,
OVER_RANGE or UNDER_ZERO; its result is kept and reported, that of an order handed to it, that of a SPAN session
settling weighing: READY within 2 divisions of the test mass, else LOCKED(SPAN_FAIL). A DYNAMIC one empties the
window. In a capture each sample counts, a DYNAMIC one too; a SATURATED one abandons it, as does, of an AUTO capture,
a load class that leaves EMPTY: back to the weigh state before it, the zero unchanged, an order's session that does
not stand in READY ended with NO_RESULT (R147). -/
def Obligations.LoadSampleFeedsSessionAndCapture : Prop :=
  ∀ (s : State) (raw : Int) (saturated : Bool) (img : Image), s.rlc.nodeState ≠ .reset → s.cpt.image = some img →
    s.wgu.base ≠ .locked .sensor →
    let dynamic : Prop := 1500 < |s.sample.az| ∨ s.sampleStale = true
    let e : WindowEntry := { net := netOf img s.wgu.zero s.sample.az raw, saturated := saturated }
    ∃ u, exec (.loadCellSample raw saturated) s = .next (State.finish u)
      ∧ (∀ ss, s.wgu.session = some ss → s.wgu.capture = none ∨ s.wgu.base = .ready →
          let win := (if ss.window.length < 16 then ss.window else ss.window.drop 1) ++ [e]
          let stable : Prop := win.length = 16 ∧ ∀ f ∈ win, ∀ g ∈ win, f.net - g.net ≤ 2 * img.division
          (dynamic → u.wgu.session = some { ss with window := [] })
            ∧ (¬ dynamic → ss.counting = false → u.wgu.session = some ss)
            ∧ (¬ dynamic → ss.counting = true → ¬ stable →
                u.wgu.session = some { ss with window := win } ∧ u.wgu.last = s.wgu.last)
            ∧ (¬ dynamic → ss.counting = true → stable → ∃ r, u.wgu.session = none ∧ u.wgu.last = some r
                ∧ Reports s u (.weighResult r) ∧ r.kind = ss.kind ∧ r.division = img.division
                ∧ ClassifiedBy img win .stable r
                ∧ (isOrder ss = true → u.wgu.base = s.wgu.base ∧ .weighResult r ss.atLiftOff ∈ u.work)
                ∧ ∀ mass, ss.kind = .span mass →
                    ((∃ w, r.status = .stable ∧ r.weight = some w ∧ |(w : Int) - (mass : Int)| ≤ 2 * img.division) →
                        u.wgu.base = .ready)
                      ∧ ((∀ w, r.status = .stable → r.weight = some w → 2 * img.division < |(w : Int) - (mass : Int)|) →
                        u.wgu.base = .locked .spanFail)))
      ∧ ∀ c, s.wgu.capture = some c → (∀ ss, s.wgu.session = some ss → isOrder ss = true) →
          let leaves : Prop := c.kind = .auto ∧ u.wgu.loadClass ≠ s.wgu.loadClass ∧ u.wgu.loadClass ≠ .empty
          let abandoned (why : AbandonReason) : Prop := u.wgu.base = s.wgu.base ∧ u.wgu.zero = s.wgu.zero
            ∧ Reports s u (.captureAbandoned c.kind why)
            ∧ (u.wgu.capture = none ∨ (s.wgu.mark = false
                ∧ u.wgu.capture = some { kind := .auto, startedAt := s.now, count := 0, sum := 0 }))
            ∧ ∀ ss, s.wgu.session = some ss → s.wgu.base ≠ .ready → u.wgu.session = none ∧ u.wgu.last = some
                { kind := ss.kind, status := .noResult, weight := none, division := img.division, flag := .notChecked }
          (saturated = false → ¬ leaves → u.wgu.capture = some { c with count := c.count + 1, sum := c.sum + raw })
            ∧ (saturated = true → abandoned .saturated)
            ∧ (saturated = false → leaves → abandoned .loadClass ∧ u.wgu.capture = none)

/-- A POSITION frame with a wrong CRC, length or grip state is counted in CP_BAD, and one whose sequence is that of
the last taken or 32,768 and more ahead of it is counted as old, with no other effect; a frame of another kind comes
by CP_FRAME_RECEIVED and changes nothing here (the model's choice, log entry 2). Any other is taken: held with its
grip state and its sequence, each field clamped into its range, the skipped sequences counted, and the excursion
marked while a clamp changes a field (R199, R206 to R209). The state stated of a taken sample is the one after its
hand-ons. -/
def Obligations.PositionSampleIsTakenBySequence : Prop :=
  ∀ (s : State) (bytes : List Byte), s.rlc.nodeState ≠ .reset →
    let ahead (last q : Nat) : Nat := (q + 65536 - last) % 65536
    let counted (c : Cpt) : Prop := Settles (.positionSample bytes) s { s with cpt := c }
    let bad : Prop := counted { s.cpt with cpBad := min 65535 (s.cpt.cpBad + 1) }
    (Codec.openPort bytes = none → bad)
    ∧ (∀ h, Codec.openPort bytes = some h →
        (h.kind ≠ 32 → Settles (.positionSample bytes) s s)
          ∧ (h.kind = 32 → h.length ≠ 23 ∨ h.payload.length ≠ 23 → bad)
          ∧ (h.kind = 32 → h.length = 23 → h.payload.length = 23 → ∃ f, Codec.decodePosition bytes = some f))
    ∧ ∀ f, Codec.decodePosition bytes = some f →
      (Codec.gripOf f.gripCode = none → bad)
      ∧ (∀ grip last, Codec.gripOf f.gripCode = some grip → s.cpt.sampleSeq = some last →
          ahead last f.seq = 0 ∨ 32768 ≤ ahead last f.seq →
            counted { s.cpt with old := min 65535 (s.cpt.old + 1) })
      ∧ ∀ grip, TakesSample s bytes f grip →
        ∃ u p, exec (.positionSample bytes) s = .next u
          ∧ u.now = s.now ∧ u.ptb = s.ptb ∧ u.lcp = s.lcp ∧ u.pending = s.pending
          ∧ u.rlc.nodeState = s.rlc.nodeState ∧ u.cpt.image = s.cpt.image
          ∧ u.cpt.held = some p ∧ u.cpt.takenAt = s.now ∧ u.cpt.sampleSeq = some f.seq ∧ u.cpt.staleTold = false
          ∧ p.grip = grip ∧ p.seq = f.seq ∧ p.z = clamp 0 30000 f.z
          ∧ p.vx = clamp (-4000) 4000 f.vx ∧ p.vy = clamp (-4000) 4000 f.vy ∧ p.vz = clamp (-4000) 4000 f.vz
          ∧ p.az = clamp (-10000) 10000 f.az
          ∧ (s.cpt.image = none → p.x = clamp 0 250000 f.x ∧ p.y = clamp 0 60000 f.y)
          ∧ (∀ img, s.cpt.image = some img → p.x = clamp 0 img.runway f.x ∧ p.y = clamp 0 img.span f.y)
          ∧ (u.cpt.excursion = true ↔ p.x ≠ f.x ∨ p.y ≠ f.y ∨ p.z ≠ f.z ∨ p.vx ≠ f.vx ∨ p.vy ≠ f.vy ∨ p.vz ≠ f.vz
              ∨ p.az ≠ f.az)
          ∧ (s.cpt.sampleSeq = none → u.cpt.skipped = s.cpt.skipped)
          ∧ ∀ last, s.cpt.sampleSeq = some last →
              u.cpt.skipped = min 65535 (s.cpt.skipped + (ahead last f.seq - 1))

/-- A taken position sample in the weighing (R144, R145): a running capture is abandoned by a grip that is not OPEN,
and by a hook that moves at 20 mm/s or more: back to the weigh state before it, the zero unchanged, an order's session
that does not stand in READY ended with NO_RESULT (R147; stated without an active order). An AUTO capture begins where
no capture runs, the conditions hold (an image, weigh state UNZEROED or READY, the hook still, the grip OPEN, the load
class EMPTY) and the mark is clear; else none begins. After it the mark says whether the conditions hold, those of a
running capture read with its state before capture (log entry 37). The state stated is the one in which the hand-ons
still stand to be served. -/
def Obligations.PositionSampleBeginsOrAbandonsTheCapture : Prop :=
  ∀ (s : State) (bytes : List Byte) (f : PositionFrame) (g : Grip), TakesSample s bytes f g →
    let still : Prop := |clamp (-4000) 4000 f.vz| < 20
    let hold : Prop := s.cpt.image ≠ none ∧ (s.wgu.base = .unzeroed ∨ s.wgu.base = .ready) ∧ still ∧ g = .opened
      ∧ s.wgu.loadClass = .empty
    ∃ u, exec (.positionSample bytes) s = .next (State.finish u)
      ∧ u.wgu.base = s.wgu.base ∧ u.wgu.zero = s.wgu.zero ∧ (u.wgu.mark = true ↔ hold)
      ∧ (s.wgu.capture = none → hold → s.wgu.mark = false →
          u.wgu.capture = some { kind := .auto, startedAt := s.now, count := 0, sum := 0 }
            ∧ Reports s u (.weighState (.capturing .auto)))
      ∧ (s.wgu.capture = none → ¬ hold ∨ s.wgu.mark = true → u.wgu.capture = none)
      ∧ ∀ c, s.wgu.capture = some c →
          let abandoned (why : AbandonReason) : Prop := u.wgu.capture = none
            ∧ Reports s u (.captureAbandoned c.kind why) ∧ Reports s u (.weighState (.base s.wgu.base))
            ∧ ∀ ss img, s.wgu.session = some ss → isOrder ss = true → s.wgu.base ≠ .ready → s.moc.active = none →
                s.cpt.image = some img → u.wgu.session = none ∧ u.wgu.last = some
                { kind := ss.kind, status := .noResult, weight := none, division := img.division, flag := .notChecked }
          (g = .opened → still → u.wgu.capture = some c)
            ∧ (g ≠ .opened → abandoned .grip)
            ∧ (g = .opened → ¬ still → abandoned .moving)

/-- The active order at a taken position sample (R182, R185, R189, R191), which decides one thing (log entry 35):
arrival within 50 mm of the place enters PICK_LOWER at the source and PLACE_LOWER at the destination, for a bay
position where it still takes the coil, else DECIDE (R168); in LIFT before lift-off a stack that stands on the source
slot ends the order SOURCE_BURIED with the map as it was, so that nothing is lifted from under a stack (R114, R192;
that the sample stops it, ahead of lift-off, is the model's choice, log entry 64); else lift-off, 200 mm above the
grip height, empties the source slot's record with a PICK notice, releases the slot and goes on to DECIDE or opens a
session, and with the load class EMPTY ends the order SOURCE_EMPTY; grip OPEN in OPEN makes the destination slot OCCUPIED by the coil, whose stored
weight is the result's or else the declared one (log entry 23), with a PLACE notice, and enters CLEAR; 50 mm below
travel height CLEAR ends the order DONE. That the weighing has taken the sample before the order does, so that a bay
position is tested with the weigh state after it, is the model's choice (log entry 10). Any other sample leaves the
order where it is, but for its zone claims. The state stated is the one in which the hand-ons still stand to be
served. -/
def Obligations.OrderMovesAtItsSamples : Prop :=
  ∀ (s : State) (bytes : List Byte) (f : PositionFrame) (g : Grip) (img : Image) (a : Active),
    TakesSample s bytes f g → s.cpt.image = some img → ZonesDistinct img → s.moc.active = some a →
    let x := clamp 0 img.runway f.x
    let y := clamp 0 img.span f.y
    let z := clamp 0 30000 f.z
    let near : Prop := |x - a.targetX| ≤ 50 ∧ |y - a.targetY| ≤ 50
    let seq := if 65535 ≤ s.rlc.noticeSeq then 1 else s.rlc.noticeSeq + 1
    let notice (u : State) (id : Nat) (k : NoticeKind) (c : Coil) : Prop :=
      u.rlc.notices.getLast? = some { left := 2, notice := { seq := seq, slot := id, kind := k, coil := c } }
    let changed (u : State) (id : Nat) (r : SlotRec) : Prop :=
      slotRec u.smu id = some r ∧ ∀ k, k ≠ id → slotRec u.smu k = slotRec s.smu k
    ∃ u, exec (.positionSample bytes) s = .next (State.finish u)
      ∧ (let goesOn : Prop := u.smu = s.smu ∧ u.tbu = s.tbu ∧ ∃ b, u.moc.active = some b
            ∧ b = { a with transit := b.transit, srcClaims := b.srcClaims, askRefused := b.askRefused }
         let enters (p : Phase) : Prop := ∃ b, u.moc.active = some b ∧ b.phase = p ∧ b.ord = a.ord ∧ b.phaseAt = s.now
         let aims (p : Option Place) : Prop := ∃ b, u.moc.active = some b ∧ ∀ q, p = some q →
            b.targetX = q.x ∧ b.targetY = q.y ∧ b.contact = some b.targetZ
              ∧ (∀ d, a.coil.diameter = some d → b.targetZ = q.seat + img.tongHang + (d : Int))
              ∧ (a.coil.diameter = none → b.targetZ = q.seat + img.tongHang + img.dmax)
         (a.phase = .claimSource ∨ a.phase = .decide ∨ a.phase = .holdLoad ∨ a.phase = .claimDest ∨ a.phase = .placeLower →
            goesOn)
          ∧ (a.phase = .toSource ∨ a.phase = .toDest → ¬ near → goesOn)
          ∧ (a.phase = .toSource → near → enters .pickLower ∧ aims a.srcPlace)
          ∧ (∀ id, a.phase = .toDest → a.destUse = some (.slot id) → near → enters .placeLower ∧ aims a.destPlace)
          ∧ (∀ bay pos, a.phase = .toDest → a.destUse = some (.position bay pos) → 1 ≤ bay → bay ≤ 4 → near →
              (∀ q, StillFits s u.wgu img a bay pos q → enters .placeLower ∧ aims (some q))
                ∧ ((∀ q, ¬ StillFits s u.wgu img a bay pos q) → enters .decide ∧ .decide ∈ u.work))
          ∧ (a.phase = .lift → a.lifted = true → goesOn)
          ∧ (∀ id, a.phase = .lift → a.lifted = false → a.ord.source = .slot id → StackStands s img id →
              OrderEnded u a (.failed .sourceBuried) ∧ u.smu = s.smu)
          ∧ (∀ h, a.phase = .lift → (∀ id, a.ord.source = .slot id → ¬ StackStands s img id) → a.gripHeight = some h →
              z < h + 200 → goesOn)
          ∧ (∀ h id r, a.phase = .lift → a.lifted = false → a.gripHeight = some h → h + 200 ≤ z →
              a.ord.source = .slot id → ¬ StackStands s img id → slotRec s.smu id = some r →
              (s.wgu.loadClass ≠ .empty →
                changed u id { r with content := .empty, coil := {}, disputed := false, source := some .own }
                  ∧ notice u id .pick a.coil
                  ∧ (∃ b, u.moc.active = some b ∧ b.lifted = true ∧ b.ord = a.ord ∧ .slot id ∉ b.srcClaims)
                  ∧ (a.result ≠ none → enters .decide)
                  ∧ (a.result = none → (∃ b, u.moc.active = some b ∧ b.phase = .lift)
                      ∧ (s.wgu.base = .ready → (∀ ss, s.wgu.session = some ss → isOrder ss = true) →
                          u.wgu.session = some { kind := .order a.ord.id a.coil.id a.coil.weight, openedAt := s.now,
                                                 window := [], counting := true, atLiftOff := true })))
              ∧ (s.wgu.loadClass = .empty →
                changed u id { r with content := .empty, coil := {}, disputed := false, source := some .landing }
                  ∧ notice u id .foundEmpty {} ∧ OrderEnded u a (.failed .sourceEmpty)))
          ∧ (a.phase = .opening → g ≠ .opened → goesOn)
          ∧ (∀ id r, a.phase = .opening → g = .opened → a.destUse = some (.slot id) → slotRec s.smu id = some r →
              let c := keepCoil img { a.coil with weight := coilWeight a.result a.coil }
              changed u id { r with content := .occupied, coil := c, disputed := false, source := some .own }
                ∧ notice u id .place c ∧ enters .clear)
          ∧ (a.phase = .clear → z < img.travelHeight - 50 → goesOn)
          ∧ (a.phase = .clear → img.travelHeight - 50 ≤ z → OrderEnded u a .done ∧ u.moc.waiting = s.moc.waiting))

/-- The tests of the phases that wait (R183, R188, R189). CLAIM_SOURCE with every source claim HELD puts the source
test again: ELIGIBLE enters TO_SOURCE towards the source's place, CLAIMED and TRUCK_STALE stay, any other answer ends
the order. CLAIM_DEST gives up a destination slot whose claim is WAITING, excluded and back in DECIDE; with every
destination claim HELD it enters TO_DEST for a slot, and for a bay position where it still takes the coil (R168), else
returns to DECIDE with its claims kept. An order that is at its place at entry to TO_SOURCE or TO_DEST, or has cleared
at entry to CLEAR, passes on at once; in any other case the phase stays. This is the hand-on with which each entry to
these phases ends (log entry 9), and with which a claim that becomes HELD reaches them. That the transit claims are
asked ahead of that test is the model's choice (log entry 68). -/
def Obligations.HeldClaimsMoveTheOrder : Prop :=
  ∀ (s : State) (img : Image) (a : Active), s.cpt.image = some img → ZonesDistinct img → s.moc.active = some a →
    let u := serveWork s .progress
    let enters (p : Phase) : Prop := ∃ b, u.moc.active = some b ∧ b.phase = p ∧ b.ord = a.ord ∧ b.phaseAt = s.now
    let travels (p : Phase) (q : Place) : Prop := enters p ∧ .progress ∈ u.work
      ∧ ∃ b, u.moc.active = some b ∧ b.targetX = q.x ∧ b.targetY = q.y ∧ b.targetZ = img.travelHeight
    let lowers (p : Phase) (q : Place) : Prop := enters p ∧ ∃ b, u.moc.active = some b
      ∧ b.targetX = q.x ∧ b.targetY = q.y ∧ b.contact = some b.targetZ
      ∧ (∀ d, a.coil.diameter = some d → b.targetZ = q.seat + img.tongHang + (d : Int))
      ∧ (a.coil.diameter = none → b.targetZ = q.seat + img.tongHang + img.dmax)
    let near : Prop := s.sampleStale = false ∧ |s.sample.x - a.targetX| ≤ 50 ∧ |s.sample.y - a.targetY| ≤ 50
    let lost (id : Nat) : Prop := a.destUse = some (.slot id)
      ∧ ∃ c, findClaim s (.slot id) = some c ∧ c.state = .waiting
    let held (ts : List Target) : Prop := ∀ t ∈ ts, OrderHolds s t
    (a.phase = .claimSource → ¬ held a.srcClaims → u = s)
      ∧ (∀ ans, a.phase = .claimSource → held a.srcClaims →
          (∀ bay pos, a.ord.source = .bay bay pos → 1 ≤ bay ∧ bay ≤ 4) → SourceAnswers s img a.ord ans →
          (∀ q, ans = .eligible → SourceAt s img a.ord q → travels .toSource q)
            ∧ (ans = .claimed ∨ ans = .truckStale → u.moc = s.moc ∧ u.clu = s.clu)
            ∧ ∀ why, ans = .failed why → OrderEnded u a (.failed why))
      ∧ (∀ id, a.phase = .claimDest → lost id → enters .decide ∧ .decide ∈ u.work
          ∧ ∃ b, u.moc.active = some b ∧ id ∈ b.excluded ∧ .slot id ∉ b.destClaims)
      ∧ (a.phase = .claimDest → (∀ id, ¬ lost id) → ¬ held a.destClaims → u = s)
      ∧ (∀ id q, a.phase = .claimDest → ¬ lost id → held a.destClaims → a.destUse = some (.slot id) →
          a.destPlace = some q → travels .toDest q)
      ∧ (∀ bay pos, a.phase = .claimDest → held a.destClaims → a.destUse = some (.position bay pos) → 1 ≤ bay → bay ≤ 4 →
          (∀ q, StillFits s s.wgu img a bay pos q → travels .toDest q)
            ∧ ((∀ q, ¬ StillFits s s.wgu img a bay pos q) → enters .decide ∧ .decide ∈ u.work
                ∧ ∃ b, u.moc.active = some b ∧ b.destClaims = a.destClaims ∧ b.excluded = a.excluded))
      ∧ (∀ q, a.phase = .toSource → near → a.srcPlace = some q → lowers .pickLower q)
      ∧ (∀ id q, a.phase = .toDest → near → a.destUse = some (.slot id) → a.destPlace = some q → lowers .placeLower q)
      ∧ (∀ bay pos, a.phase = .toDest → near → a.destUse = some (.position bay pos) → 1 ≤ bay → bay ≤ 4 →
          (∀ q, StillFits s s.wgu img a bay pos q → lowers .placeLower q)
            ∧ ((∀ q, ¬ StillFits s s.wgu img a bay pos q) → enters .decide ∧ .decide ∈ u.work))
      ∧ (a.phase = .toSource ∨ a.phase = .toDest → ¬ near →
          ∃ b, u.moc.active = some b ∧ b = { a with transit := b.transit, askRefused := b.askRefused })
      ∧ (a.phase = .clear → s.sampleStale = false → img.travelHeight - 50 ≤ s.sample.z → OrderEnded u a .done)
      ∧ (a.phase = .clear → s.sampleStale = true ∨ s.sample.z < img.travelHeight - 50 → u = s)
      ∧ (a.phase = .pickLower ∨ a.phase = .lift ∨ a.phase = .decide ∨ a.phase = .holdLoad ∨ a.phase = .placeLower
          ∨ a.phase = .opening → u = s)

/-- What the claim unit and the weighing unit hand to the active order (R178, R181, R185). A claim that leaves HELD: a
source claim in TO_SOURCE returns the order to CLAIM_SOURCE, its claims asked for again; a destination slot in
CLAIM_DEST and TO_DEST is given up and excluded, back in DECIDE; a destination zone or bay in TO_DEST returns to
CLAIM_DEST; in every other case nothing changes. Any other change of a claim puts the test of CLAIM_SOURCE and
CLAIM_DEST. An entry removed from the list lets an order whose ask was refused ask again. A weigh result in LIFT is
held before lift-off where it is STABLE, UNSTABLE or OVER_RANGE and at least 1,000, and after lift-off where it is of
the session opened at lift-off, and then the order enters DECIDE; any other result is disregarded. These are the
hand-ons of log entry 9. -/
def Obligations.LostClaimsAndResultsReachTheOrder : Prop :=
  (∀ (s : State) (img : Image) (a : Active) (t : Target) (st : ClaimState), s.cpt.image = some img →
    s.moc.active = some a → (∀ k ∈ a.srcClaims ++ a.destClaims, targetOk img k = true) →
    let u := serveWork s (.orderClaim a.ord.id t st true)
    let enters (p : Phase) : Prop := ∃ b, u.moc.active = some b ∧ b.phase = p ∧ b.ord = a.ord ∧ b.phaseAt = s.now
    let source : Prop := a.phase = .toSource ∧ t ∈ a.srcClaims
    let slot : Prop := (a.phase = .claimDest ∨ a.phase = .toDest) ∧ t ∈ a.destClaims ∧ ∃ id, t = .slot id
    let zone : Prop := a.phase = .toDest ∧ t ∈ a.destClaims ∧ ∃ z, t = .zone z
    (source → enters .claimSource ∧ .progress ∈ u.work ∧ (s.rlc.nodeState = .running → AsksFor u a.srcClaims)
        ∧ ∃ b, u.moc.active = some b ∧ b.srcClaims = a.srcClaims)
      ∧ (slot → enters .decide ∧ .decide ∈ u.work
        ∧ ∃ b, u.moc.active = some b ∧ t ∉ b.destClaims ∧ ∀ id, t = .slot id → id ∈ b.excluded)
      ∧ (zone → enters .claimDest ∧ .progress ∈ u.work ∧ (s.rlc.nodeState = .running → AsksFor u a.destClaims)
        ∧ ∃ b, u.moc.active = some b ∧ b.destClaims = a.destClaims ∧ b.destUse = a.destUse)
      ∧ (¬ source → ¬ slot → ¬ zone → u = s)
      ∧ (a.phase = .claimSource ∨ a.phase = .claimDest →
          serveWork s (.orderClaim a.ord.id t st false) = serveWork s .progress)
      ∧ (∀ id left, id ≠ a.ord.id → serveWork s (.orderClaim id t st left) = s)
      ∧ (let v := serveWork s .claimRemoved
         (a.askRefused = false → v = s)
          ∧ (∀ ts, a.askRefused = true → s.rlc.nodeState = .running →
              (a.phase = .claimSource ∧ ts = a.srcClaims) ∨ (a.phase = .claimDest ∧ ts = a.destClaims) →
              AsksFor v ts ∧ .progress ∈ v.work ∧ ∃ b, v.moc.active = some b ∧ b = { a with askRefused := b.askRefused })))
  ∧ ∀ (s : State) (img : Image) (a : Active) (r : WeighResult) (atLiftOff : Bool), s.cpt.image = some img →
    s.moc.active = some a →
    let u := serveWork s (.weighResult r atLiftOff)
    let mine : Prop := a.phase = .lift ∧ ∃ coil declared, r.kind = .order a.ord.id coil declared
    let good : Prop := (r.status = .stable ∨ r.status = .unstable ∨ r.status = .overRange)
      ∧ ∃ w, r.weight = some w ∧ 1000 ≤ w
    (¬ mine → u = s)
      ∧ (mine → a.lifted = false → good →
          u = { s with moc := { s.moc with active := some { a with result := some r } } })
      ∧ (mine → a.lifted = false → ¬ good → u = s)
      ∧ (mine → a.lifted = true → atLiftOff = false → u = s)
      ∧ (mine → a.lifted = true → atLiftOff = true → .decide ∈ u.work ∧ ∃ b, u.moc.active = some b
          ∧ b.phase = .decide ∧ b.phaseAt = s.now ∧ b.ord = a.ord ∧ b.lifted = true ∧ b.result = some r)

/-- The grip on the coil and the coil on its place (R134, R184, R190, R191). In PICK_LOWER the first CLOSED sample at
or below contact height + 150 records the grip height and enters LIFT with an ORDER session, which counts in READY and
else ends at once with NO_RESULT, and replaces an open ORDER session but no SPAN session; for a slot source it does so
only where the pick test answers ELIGIBLE or CLAIMED, and any other answer ends the order; where a stack stands on a
CLAIMED slot LIFT is entered and the order ends SOURCE_BURIED there (R114; the moment of it is the model's choice, log
entry 64); higher up GRIP_CLOSED_HIGH is reported, once. In PLACE_LOWER the first load sample at which the coil is down, by twice the net against the
reference weight, the result's or else the declared one (log entry 23), or without one by a load class that is EMPTY,
at a DYNAMIC sample too (log entry 43; both are the model's readings), enters OPEN, or is an EARLY_CONTACT above
contact height + 150: the slot is recorded OCCUPIED, released and excluded, or the bay excluded, and the order is back
in DECIDE. In OPEN one at which the coil is up again returns to PLACE_LOWER. The state stated is the one in which the
hand-ons still stand to be served. -/
def Obligations.GripAndLandingMoveTheOrder : Prop :=
  (∀ (s : State) (bytes : List Byte) (f : PositionFrame) (g : Grip) (img : Image) (a : Active),
    TakesSample s bytes f g → s.cpt.image = some img → s.moc.active = some a → a.phase = .pickLower →
    let z := clamp 0 30000 f.z
    let low : Prop := z ≤ a.contact.getD 0 + 150
    ∃ u, exec (.positionSample bytes) s = .next (State.finish u)
      ∧ (let lifts : Prop :=
          let kind : SessionKind := .order a.ord.id a.coil.id a.coil.weight
          let refused : Option WeighResult := some
            { kind := kind, status := .noResult, weight := none, division := img.division, flag := .notChecked }
          let noSpan : Prop := ∀ ss, s.wgu.session = some ss → isOrder ss = true
          (∃ b, u.moc.active = some b ∧ b.phase = .lift ∧ b.phaseAt = s.now ∧ b.ord = a.ord ∧ b.gripHeight = some z
              ∧ b.lifted = a.lifted)
            ∧ (s.wgu.base = .ready → noSpan → u.wgu.session = some
                { kind := kind, openedAt := s.now, window := [], counting := true, atLiftOff := false })
            ∧ (s.wgu.base ≠ .ready → noSpan → u.wgu.session = none ∧ u.wgu.last = refused)
            ∧ (∀ ss, s.wgu.session = some ss → isOrder ss = false →
                u.wgu.session = some ss ∧ u.wgu.last = refused)
         (g ≠ .closed → ∃ b, u.moc.active = some b ∧ b = { a with transit := b.transit, srcClaims := b.srcClaims })
          ∧ (g = .closed → ¬ low →
              (∃ b, u.moc.active = some b
                ∧ b = { a with gripHighTold := true, transit := b.transit, srcClaims := b.srcClaims })
                ∧ (a.gripHighTold = false → Reports s u (.gripClosedHigh a.ord.id z)))
          ∧ (∀ bay pos, g = .closed → low → a.ord.source = .bay bay pos → lifts)
          ∧ ∀ id, g = .closed → low → a.ord.source = .slot id →
              let t := pickTest s img id
              (t = .eligible → lifts) ∧ (∀ n, t = .claimed n → ¬ StackStands s img id → lifts)
                ∧ (∀ n, t = .claimed n → StackStands s img id →
                    Reports s u (.orderState a.ord.id (.phase .lift)) ∧ OrderEnded u a (.failed .sourceBuried))
                ∧ (∀ c, t = .notOccupied c → OrderEnded u a (.failed .sourceNotOccupied))
                ∧ (t = .blocked → OrderEnded u a (.failed .sourceBlocked))
                ∧ (∀ ids, t = .buried ids → OrderEnded u a (.failed .sourceBuried))
                ∧ (t = .noSlot → OrderEnded u a (.failed .noSlot))))
  ∧ ∀ (s : State) (raw : Int) (saturated : Bool) (img : Image) (a : Active), s.rlc.nodeState ≠ .reset →
    s.cpt.image = some img → s.moc.active = some a →
    let dynamic : Prop := 1500 < |s.sample.az| ∨ s.sampleStale = true
    let net := netOf img s.wgu.zero s.sample.az raw
    let c := a.contact.getD 0
    let z := s.sample.z
    ∃ u, exec (.loadCellSample raw saturated) s = .next (State.finish u)
      ∧ (let enters (p : Phase) : Prop := ∃ b, u.moc.active = some b ∧ b.phase = p ∧ b.ord = a.ord ∧ b.phaseAt = s.now
            ∧ b.result = a.result
         let down : Prop := match coilWeight a.result a.coil with
           | some w => ¬ dynamic ∧ net * 2 < (w : Int)
           | none => u.wgu.loadClass = .empty
         let up : Prop := match coilWeight a.result a.coil with
           | some w => ¬ dynamic ∧ (w : Int) ≤ net * 2
           | none => u.wgu.loadClass ≠ .empty
         (a.phase ≠ .placeLower → a.phase ≠ .opening → u.moc.active = some a)
          ∧ (a.phase = .placeLower → ¬ down → u.moc.active = some a)
          ∧ (a.phase = .placeLower → down → z ≤ c + 150 → enters .opening ∧ u.smu = s.smu
              ∧ (z < c - 150 → Reports s u (.lowLanding a.ord.id z)))
          ∧ (∀ id r, a.phase = .placeLower → down → c + 150 < z → a.destUse = some (.slot id) →
              slotRec s.smu id = some r →
              slotRec u.smu id = some { r with
                  content := .occupied, coil := {}, disputed := false, source := some .landing }
                ∧ (∀ k, k ≠ id → slotRec u.smu k = slotRec s.smu k)
                ∧ enters .decide
                ∧ ∃ b, u.moc.active = some b ∧ id ∈ b.excluded ∧ .slot id ∉ b.destClaims)
          ∧ (∀ bay pos, a.phase = .placeLower → down → c + 150 < z → a.destUse = some (.position bay pos) →
              enters .decide ∧ Reports s u (.earlyContact a.ord.id bay pos) ∧ u.tbu.trucks = s.tbu.trucks
                ∧ ∃ b, u.moc.active = some b ∧ b.bayExcluded = true)
          ∧ (a.phase = .opening → up → enters .placeLower)
          ∧ (a.phase = .opening → ¬ up → u.moc.active = some a))

/-- The commits of an order on a trailer, at the samples that make them (R169, R170, R185, R191): the grip OPEN sample
in OPEN with a bay position in use enters it as LOADED with the order's coil id and the weight used at DECIDE;
lift-off from a bay position clears it, and with the load class EMPTY reports it found empty and ends the order
SOURCE_EMPTY. Sums and group loads move by the weight, the version by one, and a TRUCK_STATE is queued. After the
version check a commit is lost, the record left as it was, where the bay has no truck or no such position, is STALE,
has no room, or would pass version 65,535; the order goes on either way. The coil ids that the reports name are the
model's choice (log entry 54). The state stated is the one in which the hand-ons still stand to be served. -/
def Obligations.TrailerCommitsChangeTheRecord : Prop :=
  ∀ (s : State) (bytes : List Byte) (f : PositionFrame) (g : Grip) (img : Image) (a : Active) (bay pos : Nat),
    TakesSample s bytes f g → s.cpt.image = some img → s.moc.active = some a → 1 ≤ bay → bay ≤ 4 →
    let own := s.tbu.trucks.get bay
    let need := max (s.tbu.required.get bay) (highestSeen s.ptb bay)
    let lost (u : State) (why : CommitFail) : Prop :=
      u.tbu.trucks = s.tbu.trucks ∧ Reports s u (.truckCommitLost bay pos a.ord.coil why)
    let becomes (u : State) (c : TruckContent) : Prop :=
      u.tbu.trucks = s.tbu.trucks.set bay { version := own.version + 1, content := c }
        ∧ Reports s u (.truckUpdated bay (own.version + 1) .own)
        ∧ (s.rlc.queue.length < 16 → .fixed (.truckState bay (own.version + 1) c) ∈ u.rlc.queue)
    let absent (u : State) : Prop :=
      (own.content = .noTruck → lost u .noTruck)
        ∧ ∀ ready d cum loads, own.content = .present ready d cum loads → pos = 0 ∨ d.positions.length < pos →
          lost u .noTruck
    (a.phase = .opening → g = .opened → a.destUse = some (.position bay pos) →
      ∃ u b, exec (.positionSample bytes) s = .next (State.finish u)
        ∧ u.moc.active = some b ∧ b.phase = .clear ∧ b.ord = a.ord ∧ absent u
        ∧ ∀ ready d cum loads p, own.content = .present ready d cum loads → 1 ≤ pos →
          d.positions[pos - 1]? = some p →
            let m := a.usedWeight.getD 0
            let full : Position := { p with loaded := true, coilId := some a.ord.coil, weight := some m }
            let fits := FitsPosition d cum loads p m
            (own.version < need → lost u .truckStale)
              ∧ (need ≤ own.version → ¬ fits → lost u .noFit)
              ∧ (need ≤ own.version → fits → 65535 ≤ own.version → lost u .versionLimit)
              ∧ (need ≤ own.version → fits → own.version < 65535 → becomes u (.present ready
                  { d with positions := d.positions.set (pos - 1) full }
                  (cum + m) (loads.mapIdx fun i l => l + increment p m (i + 1)))))
    ∧ ∀ h, a.phase = .lift → a.lifted = false → a.gripHeight = some h → h + 200 ≤ clamp 0 30000 f.z →
        a.ord.source = .bay bay pos →
      ∃ u, exec (.positionSample bytes) s = .next (State.finish u)
        ∧ (s.wgu.loadClass ≠ .empty → ∃ b, u.moc.active = some b ∧ b.lifted = true ∧ b.ord = a.ord
            ∧ (a.result ≠ none → b.phase = .decide) ∧ (a.result = none → b.phase = .lift))
        ∧ (s.wgu.loadClass = .empty → OrderEnded u a (.failed .sourceEmpty)) ∧ absent u
        ∧ ∀ ready d cum loads p, own.content = .present ready d cum loads → 1 ≤ pos →
          d.positions[pos - 1]? = some p →
            let m := p.weight.getD 0
            let free : Position := { p with loaded := false, coilId := none, weight := none }
            (own.version < need → lost u .truckStale)
              ∧ (need ≤ own.version → 65535 ≤ own.version → lost u .versionLimit)
              ∧ (need ≤ own.version → own.version < 65535 → p.loaded = false → u.tbu.trucks = s.tbu.trucks)
              ∧ (need ≤ own.version → own.version < 65535 → p.loaded = true →
                  becomes u (.present ready
                    { d with positions := d.positions.set (pos - 1) free }
                    (cum - m) (loads.mapIdx fun i l => l - increment p m (i + 1)))
                  ∧ (s.wgu.loadClass = .empty →
                      Reports s u (.truckPositionFoundEmpty bay pos (p.coilId.getD a.ord.coil))))

/-- DECIDE settles the destination (R186, R187): the primary, unless it is skipped for a cancel, a MISMATCH or an
early contact on its bay, and where it is not taken the alternate, with ORDER_DIVERTED; where neither is, HOLD_LOAD,
with ORDER_HELD and the destination claims released. A slot is taken where it passes the candidate test, an area where
the choice finds a slot, a bay where after the version check it is READY and not STALE, weighing is trusted with a
STABLE result, the version is below 65,535 and some position of the plan takes the weight, of which the first one is
used (R166, R167). The destination taken enters CLAIM_DEST, and its targets are asked for (R178; an ask refused is
asked again, log entry 55). This is the hand-on with which each entry to DECIDE ends (log entry 9). -/
def Obligations.DecideSettlesTheDestination : Prop :=
  ∀ (s : State) (img : Image) (a : Active), s.cpt.image = some img → ZonesDistinct img → s.moc.active = some a →
    a.phase = .decide →
    let u := serveWork s .decide
    let w := coilWeight a.result a.coil
    let own (b : Nat) : Truck := s.tbu.trucks.get b
    let fresh (b : Nat) : Prop := max (s.tbu.required.get b) (highestSeen s.ptb b) ≤ (own b).version
    let ready (b : Nat) (zn : Zone) (d : TruckData) (cum : Nat) (loads : List Nat) : Prop :=
      bayZone img b = some zn ∧ (own b).content = .present true d cum loads
    let measured : Prop :=
      s.wgu.capture = none ∧ s.wgu.base = .ready ∧ a.result.map (·.status) = some .stable
    let room (d : TruckData) (cum : Nat) (loads : List Nat) (k : Nat) : Prop := ∃ m p, w = some m ∧ 1 ≤ k
      ∧ d.positions[k - 1]? = some p ∧ FitsPosition d cum loads p m
    let takes (d : Dest) (v : DestUse) (p : Place) : Prop := match d with
      | .slot id => v = .slot id ∧ candidateFail s img (wantedOf a) id = none ∧ slotPlace img id = some p
      | .area r1 r2 tier => ∃ id, v = .slot id ∧ slotPlace img id = some p
          ∧ areaChoice s img (wantedOf a) r1 r2 (tier.getD .any) = some id
      | .bay b => ∃ zn d cum loads k q pre post, ready b zn d cum loads ∧ fresh b ∧ measured ∧ (own b).version < 65535
          ∧ d.plan = pre ++ k :: post ∧ room d cum loads k ∧ (∀ j ∈ pre, ¬ room d cum loads j)
          ∧ v = .position b k ∧ d.positions[k - 1]? = some q ∧ p = trailerPlace zn d.deckHeight q
    let fails (d : Dest) (why : DestFail) : Prop := match d with
      | .slot id => ∃ f, candidateFail s img (wantedOf a) id = some f ∧ why = .noSlot (some f)
      | .area r1 r2 tier => areaChoice s img (wantedOf a) r1 r2 (tier.getD .any) = none ∧ why = .noSlot none
      | .bay b => ((∀ zn d cum loads, ¬ ready b zn d cum loads) ∧ why = .noPosition .notReady)
          ∨ ∃ zn d cum loads, ready b zn d cum loads
            ∧ ((¬ fresh b ∧ why = .truckStale)
              ∨ (fresh b ∧ ¬ measured ∧ why = .weighLocked)
              ∨ (fresh b ∧ measured ∧ 65535 ≤ (own b).version ∧ why = .noPosition .versionLimit)
              ∨ (fresh b ∧ measured ∧ (own b).version < 65535 ∧ (∀ k ∈ d.plan, ¬ room d cum loads k)
                  ∧ why = .noPosition .noFit))
    let mismatch : Prop := a.result.map (·.flag) = some .mismatch
    let barred : Prop := isBay a.ord.dest = true ∧ a.bayExcluded = true
    let tried : Prop := a.primaryDropped = false ∧ ¬ mismatch ∧ ¬ barred
    let skipped (why : DestFail) : Prop := (a.primaryDropped = true ∧ why = .cancel)
      ∨ (a.primaryDropped = false ∧ mismatch ∧ why = .mismatch)
      ∨ (a.primaryDropped = false ∧ ¬ mismatch ∧ barred ∧ why = .noPosition .earlyContact)
    let used (why : Option DestFail) (v : DestUse) (p : Place) : Prop := ∃ b, u.moc.active = some b
      ∧ b.phase = .claimDest ∧ b.phaseAt = s.now ∧ b.ord = a.ord ∧ b.destUse = some v ∧ b.destPlace = some p
      ∧ b.diverted = why ∧ b.usedWeight = w ∧ b.excluded = a.excluded ∧ b.destClaims = destTargets img v
      ∧ (s.rlc.nodeState = .running → ∀ t ∈ destTargets img v,
          b.askRefused = true ∨ ∃ c, findClaim u t = some c ∧ .order ∈ c.holders)
    let held : Prop := (∃ b, u.moc.active = some b
        ∧ b.phase = .holdLoad ∧ b.phaseAt = s.now ∧ b.ord = a.ord ∧ b.excluded = a.excluded ∧ b.destClaims = [])
      ∧ ∀ t ∈ a.destClaims, t ∉ a.srcClaims → (∀ z ∈ a.transit, t ≠ .zone z) → s.rlc.nodeState = .running →
          ∀ c, findClaim s t = some c → c.holders = [.order] → findClaim u t = none
    (tried → ∀ v p, takes a.ord.dest v p → used none v p)
    ∧ ∀ why, (skipped why ∨ (tried ∧ fails a.ord.dest why)) →
      (∀ d v p, a.ord.alt = some d → takes d v p → used (some why) v p ∧ Reports s u (.orderDiverted a.ord.id why))
      ∧ ∀ second, ((a.ord.alt = none ∧ second = .noAlternate) ∨ ∃ d, a.ord.alt = some d ∧ fails d second) →
        held ∧ Reports s u (.orderHeld a.ord.id why second)

/-- The tests again at a change (R192, R193). A change of the source slot ends the order in TO_SOURCE and PICK_LOWER
with the reason of the pick test, CLAIMED excepted, and in LIFT before lift-off only where it answers BURIED; a stack
which an earlier row of the pick test hides does not act at the change but stops the lift at its next sample, as stated
above (log entry 64); one of the destination slot in CLAIM_DEST and TO_DEST gives the slot up, where it no longer passes the candidate test (for a
SLOT_BLOCK the model's choice, log entry 56). A change of the source bay's record ends the order in TO_SOURCE and
PICK_LOWER by the first failing test of R165, STALE excepted; one of the destination bay's in CLAIM_DEST and TO_DEST
returns to DECIDE where the position no longer takes the coil (R168), and else the place follows the record (R182; log
entry 57). These are the hand-ons that each change makes (R102, R171; log entry 9); and a peer's NOTICE that sets a
coil on an EMPTY stack above the source ends the order in the command itself (R114). -/
def Obligations.ChangesAreTestedAgain : Prop :=
  (∀ (s : State) (img : Image) (a : Active) (id : Nat), s.cpt.image = some img → s.moc.active = some a →
    let u := serveWork s (.slotChanged id)
    (a.ord.source = .slot id → a.destUse ≠ some (.slot id) →
      let t := pickTest s img id
      (a.phase = .toSource ∨ a.phase = .pickLower →
          (t = .eligible → u = s) ∧ (∀ n, t = .claimed n → u = s)
            ∧ (∀ c, t = .notOccupied c → OrderEnded u a (.failed .sourceNotOccupied))
            ∧ (t = .blocked → OrderEnded u a (.failed .sourceBlocked))
            ∧ (∀ ids, t = .buried ids → OrderEnded u a (.failed .sourceBuried))
            ∧ (t = .noSlot → OrderEnded u a (.failed .noSlot)))
        ∧ (a.phase = .lift → a.lifted = false → ∀ ids, t = .buried ids → OrderEnded u a (.failed .sourceBuried))
        ∧ (a.phase = .lift → a.lifted = true ∨ (∀ ids, t ≠ .buried ids) → u = s)
        ∧ (a.phase ≠ .claimSource → a.phase ≠ .toSource → a.phase ≠ .pickLower → a.phase ≠ .lift → u = s))
    ∧ (a.destUse = some (.slot id) → a.ord.source ≠ .slot id →
      let fit : Prop := candidateFail s img (wantedOf a) id = none
      (a.phase = .claimDest ∨ a.phase = .toDest → ¬ fit → ∃ b, u.moc.active = some b ∧ b.phase = .decide ∧ b.ord = a.ord
          ∧ id ∈ b.excluded ∧ .slot id ∉ b.destClaims)
        ∧ (a.phase = .claimDest ∨ a.phase = .toDest → fit → u = s)
        ∧ (a.phase ≠ .claimDest → a.phase ≠ .toDest → u = s)))
  ∧ (∀ (s : State) (img : Image) (a : Active) (bay pos : Nat), s.cpt.image = some img → s.moc.active = some a →
    1 ≤ bay → bay ≤ 4 →
    let u := serveWork s (.bayChanged bay)
    let own := s.tbu.trucks.get bay
    let fresh : Prop := max (s.tbu.required.get bay) (highestSeen s.ptb bay) ≤ own.version
    (a.ord.source = .bay bay pos → (∀ k, a.destUse ≠ some (.position bay k)) →
      a.phase = .toSource ∨ a.phase = .pickLower →
      (bayZone img bay = none ∨ own.content = .noTruck → OrderEnded u a (.failed .noSource))
        ∧ ∀ zn ready d cum loads, bayZone img bay = some zn → own.content = .present ready d cum loads →
          (pos = 0 ∨ 6 < pos ∨ d.positions[pos - 1]? = none → OrderEnded u a (.failed .noSource))
            ∧ ∀ p, 1 ≤ pos → pos ≤ 6 → d.positions[pos - 1]? = some p →
              let stays : Prop := ∃ b, u.moc.active = some b ∧ b.phase = a.phase ∧ b.ord = a.ord
                ∧ (a.srcPlace ≠ none → b.srcPlace = some (trailerPlace zn d.deckHeight p)
                    ∧ b.targetX = (trailerPlace zn d.deckHeight p).x ∧ b.targetY = (trailerPlace zn d.deckHeight p).y)
              (¬ fresh → stays)
                ∧ (fresh → p.loaded = false → OrderEnded u a (.failed .sourceNotOccupied))
                ∧ (fresh → p.loaded = true → 65535 ≤ own.version → OrderEnded u a (.failed .versionLimit))
                ∧ (fresh → p.loaded = true → own.version < 65535 → stays))
    ∧ (a.destUse = some (.position bay pos) → (∀ k, a.ord.source ≠ .bay bay k) →
      a.phase = .claimDest ∨ a.phase = .toDest →
      let fits (p : Place) : Prop := StillFits s s.wgu img a bay pos p
      (∀ p, fits p → ∃ b, u.moc.active = some b ∧ b.phase = a.phase ∧ b.ord = a.ord ∧ b.destUse = a.destUse
          ∧ (a.destPlace ≠ none → b.destPlace = some p
              ∧ (a.phase = .toDest → b.targetX = p.x ∧ b.targetY = p.y)))
        ∧ ((∀ p, ¬ fits p) → ∃ b, u.moc.active = some b ∧ b.phase = .decide ∧ b.ord = a.ord)))
  ∧ ∀ (s : State) (n serial : Nat) (k : Notice) (img : Image) (a : Active) (id : Nat) (r q : SlotRec),
    Routed s n serial (.notice k) → s.rlc.nodeState ≠ .config → s.work = [] → ClaimsOk s.clu → s.moc.waiting = [] →
    peerAt s.ptb n = none → trackAt s.smu n = none → 1 ≤ k.seq → k.seq < 32768 →
    k.kind = .place ∨ k.kind = .foundOccupied → s.cpt.image = some img → s.moc.active = some a →
    a.phase = .pickLower ∨ (a.phase = .lift ∧ a.lifted = false) → a.ord.source = .slot id →
    slotRec s.smu id = some r → r.content = .occupied → r.blocked = false →
    (∀ p ∈ s.ptb.peers, ∀ e ∈ p.claims, e.target ≠ .slot id) → ¬ StackStands s img id → RestsOn img k.slot id →
    RowsFit img → slotRec s.smu k.slot = some q →
      ∃ u, exec (.rxNotice n serial k) s = .next u ∧ OrderEnded u a (.failed .sourceBuried)

/-! ## Requests -/

/-- A request at the head of the buffer is answered by exactly one response, with its sequence and kind, and
remembered unless it is a read; in a state that does not accept it, BAD_STATE and no other effect; a repeat of the
last request, equal in kind, sequence and payload, is answered again with the repeat mark and has no other effect, in
every node state outside RESET (that the memory comes before the test of the state is the model's choice, log entry
61); a frame that R199 answers gets BAD_ARG (R199 to R202, R14). No other effect: the command ends in the state
stated, with any hand-ons that stood there served. The time stamp of a response is taken when it is queued (the
model's choice, log entry 16). -/
def Obligations.RequestsAreAnsweredOnce : Prop :=
  (∀ (s : State) (tag : ReqTag) (r : Request) (straps : Straps), TakesNow s tag r →
    (∃ u resp, exec (commandFor (reqKind r) straps) s = .next u
      ∧ responses u.cpt = responses s.cpt ++ [resp]
      ∧ resp.seq = tag.seq ∧ resp.kind = .known (reqKind r) ∧ resp.repeated = false
      ∧ u.cpt.reqBuf = s.cpt.reqBuf.drop 1
      ∧ (isRead (reqKind r) = false →
          u.cpt.lastReq = some { kind := reqKind r, tag := tag, response := resp })
      ∧ (isRead (reqKind r) = true → u.cpt.lastReq = s.cpt.lastReq))
    ∧ (acceptedIn (reqKind r) s.rlc.nodeState = false →
        Settles (commandFor (reqKind r) straps) s (afterAnswer s tag r .badState .none .none)))
  ∧ (∀ (s : State) (tag : ReqTag) (r : Request) (straps : Straps) (a : Answered), AtHead s tag r →
      isRead (reqKind r) = false → s.cpt.lastReq = some a → a.kind = reqKind r → a.tag = tag →
      Settles (commandFor (reqKind r) straps) s { s with cpt := { s.cpt with
        reqBuf := s.cpt.reqBuf.drop 1,
        out := s.cpt.out ++ [{ stamp := s.now % 4294967296,
                               body := .response { a.response with repeated := true } }] } })
  ∧ (∀ (s : State) (seq : Nat) (k : RespKind) (why : Reason), s.rlc.nodeState ≠ .reset →
      s.cpt.reqBuf.head? = some (.bad seq k why) → waitingOut isResponse s.cpt.out < 8 →
      exec .unknownRequestTaken s = .next { s with cpt := { s.cpt with
        reqBuf := s.cpt.reqBuf.drop 1,
        out := s.cpt.out ++ [{
          stamp := s.now % 4294967296,
          body := .response
            { seq := seq, kind := k, status := .badArg, reason := why, content := .none, repeated := false } }] } })
  ∧ ∀ (k : ReqKind) (st : NodeState), acceptedIn k st = true ↔
      (k = .configure ∨ k = .start) ∧ st = .config ∨ k = .unpark ∧ st = .parked
        ∨ (k = .restart ∨ isRead k = true) ∧ st ≠ .reset
        ∨ k ≠ .configure ∧ k ≠ .start ∧ k ≠ .unpark ∧ k ≠ .restart ∧ isRead k = false ∧ st = .running

/-- START's checks (R213, R215): the first that fails is named, in this order: the values that shape the required set,
each for a value and then its range; MISSING over the required parameters in the order of the parameter table; RANGE
outside zones and store; EXTENTS; Z_RANGE; TRAVEL_HEIGHT; the zone checks of R75; the seven geometry checks of R98.
That kinds are coded 0 to 3, and the order among the indices of one parameter, among the lanes of check 1 and the
field named of a pair are the model's choices (log entries 17 and 18). An image that passes has rows and zones within
their counts, and the blocks take its values as they stand (R216). CONFIGURE knows zones 1 to 16, rows 1 to 40 and
lanes 1 to 12 (R213). -/
def Obligations.StartChecksTheImageInOrder : Prop :=
  (∀ d : Draft,
    let v (p : Param) : Int := (draftGet d p).getD 0
    let n (p : Param) : Nat := (v p).toNat
    let run := v .runwayLength
    let span := v .spanLength
    let zs : List Nat := (List.range (n .zoneCount)).map (· + 1)
    let rs : List Nat := (List.range (n .rowCount)).map (· + 1)
    let lanes (r : Nat) : List Nat := (List.range (n (.lowerCount r))).map (· + 1)
    let all : List (Nat × Nat) := rs.flatMap fun r => (lanes r).map fun p => (r, p)
    let kind (z : Nat) (k : Int) : Bool := v (.zoneKind z) == k
    let claimed (z : Nat) : Prop := v (.zoneKind z) = 0 ∨ v (.zoneKind z) = 1
    let half := v .columnHalf
    let outside (p : Param) (lo hi : Int) : Prop := v p < lo ∨ hi < v p
    let has (p : Param) : Prop × ImageFail := (draftGet d p = none, some (p, .missing))
    let lies (c : ImageCheck) (q : Param × Int × Int) : Prop × ImageFail := (outside q.1 q.2.1 q.2.2, some (q.1, c))
    let shape (p : Param) (lo hi : Int) : List (Prop × ImageFail) := [has p, lies .range (p, lo, hi)]
    let head : List (Param × Int × Int) :=
      [ (.runwayLength, 20000, 250000), (.spanLength, 5000, 60000), (.leftExtent, 1000, 20000),
        (.rightExtent, 1000, 20000), (.gantryVmax false, 100, 4000), (.gantryVmax true, 100, 4000),
        (.gantryDec false, 50, 1000), (.gantryDec true, 50, 1000), (.trolleyVmax false, 100, 4000),
        (.trolleyVmax true, 100, 4000), (.trolleyDec false, 50, 1000), (.trolleyDec true, 50, 1000),
        (.hoistVmax false, 100, 4000), (.hoistVmax true, 100, 4000), (.reaction, 0, 1000), (.creep, 50, 1000),
        (.gapPeer, 500, 10000), (.gapWall, 0, 5000), (.clearance, 0, 2000), (.tongHang, 0, 5000), (.zMin, 0, 10000),
        (.zMax, 2000, 30000), (.travelHeight, 0, 30000), (.unknownLeft, 1000, 20000), (.unknownRight, 1000, 20000),
        (.unknownVmax, 100, 4000), (.unknownDec, 50, 1000), (.unknownReaction, 0, 1000) ]
    let store : List (Param × Int × Int) :=
      [ (.saddleHeight, 0, 2000), (.upperSeat, 300, 3000), (.dmax, 600, 3000), (.saddleMax, 600, 3000),
        (.columnHalf, 100, 2000), (.tierTolerance, 0, 500), (.upperOversize, 0, 500), (.widthTolerance, 0, 500),
        (.upperRatio, 10, 150), (.upperPenalty, 0, 1000) ]
    let scale : List (Param × Int × Int) :=
      [ (.scaleSpan, 1, 65535), (.calibratedZero, -8388608, 8388607), (.zeroWindow, 0, 1000000), (.tare, 0, 10000) ]
    let weigh : List (Param × Int × Int) :=
      [ (.ratedCapacity, 1000, 60000), (.toleranceKg, 0, 5000), (.tolerancePm, 0, 200) ]
    let zone (z : Nat) : List (Prop × ImageFail) :=
      let x0 := v (.zoneXStart z)
      let x1 := v (.zoneXEnd z)
      [ (x0 < 0 ∨ run < x0, some (.zoneXStart z, .zone)),
        (x1 ≤ x0 ∨ run < x1, some (.zoneXEnd z, .zone)),
        (v (.zoneKind z) = 3 ∧ outside (.zoneYStart z) 0 span, some (.zoneYStart z, .zone)),
        (v (.zoneKind z) = 3 ∧ (v (.zoneYEnd z) ≤ v (.zoneYStart z) ∨ span < v (.zoneYEnd z)), some (.zoneYEnd z, .zone)),
        (v (.zoneKind z) = 2 ∧ outside (.zoneCeiling z) 50 4000, some (.zoneCeiling z, .zone)),
        (v (.zoneKind z) = 1 ∧ outside (.zoneBay z) 1 4, some (.zoneBay z, .zone)),
        (v (.zoneKind z) = 1 ∧ (∃ k, 1 ≤ k ∧ k < z ∧ v (.zoneKind k) = 1 ∧ v (.zoneBay k) = v (.zoneBay z)),
          some (.zoneBay z, .zone)),
        (claimed z ∧ (∃ k, 1 ≤ k ∧ k < z ∧ claimed k ∧ v (.zoneXStart k) ≤ x1 ∧ x0 ≤ v (.zoneXEnd k)),
          some (.zoneXStart z, .zone)) ]
    let required : List Param := List.flatten
      [ head.map (·.1), zs.map .zoneXStart, zs.map .zoneXEnd, (zs.filter (kind · 3)).map .zoneYStart,
        (zs.filter (kind · 3)).map .zoneYEnd, (zs.filter (kind · 2)).map .zoneCeiling,
        (zs.filter (kind · 1)).map .zoneBay, store.map (·.1), rs.map .rowCentre, rs.map .rowHalf,
        all.map (fun q => .laneY q.1 q.2), scale.map (·.1), [.division], weigh.map (·.1) ]
    let sized : List (Param × Int × Int) := List.flatten
      [ rs.map (fun r => (.rowCentre r, 0, run)), rs.map (fun r => (.rowHalf r, 500, 5000)),
        all.map (fun q => (.laneY q.1 q.2, 0, span)), store ]
    let rows : List (Prop × ImageFail) := List.flatten
      [ shape .zoneCount 0 16, zs.flatMap (fun z => shape (.zoneKind z) 0 3), shape .rowCount 1 40,
        rs.flatMap (fun r => shape (.lowerCount r) 2 12), required.map has, head.map (lies .range),
        scale.map (lies .range),
        [(v .division ≠ 10 ∧ v .division ≠ 20 ∧ v .division ≠ 50, some (.division, .range))],
        weigh.map (lies .range),
        [ (run ≤ v .leftExtent + v .rightExtent, some (.leftExtent, .extents)),
          (v .zMax ≤ v .zMin, some (.zMin, .zRange)),
          (v .travelHeight ≤ v .zMin ∨ v .zMax < v .travelHeight, some (.travelHeight, .travelHeight)) ],
        zs.flatMap zone, sized.map (lies (.geometry 1)),
        [(v .dmax < v .saddleMax, some (.saddleMax, .geometry 2))],
        rs.map (fun r => (v (.rowCentre r) - v (.rowHalf r) < 0 ∨ run < v (.rowCentre r) + v (.rowHalf r),
          some (.rowCentre r, .geometry 3))),
        rs.map (fun r => (2 ≤ r ∧ v (.rowCentre r) - v (.rowHalf r)
          ≤ v (.rowCentre (r - 1)) + v (.rowHalf (r - 1)), some (.rowCentre r, .geometry 4))),
        all.map (fun q => (v (.laneY q.1 q.2) - half < 0 ∨ span < v (.laneY q.1 q.2) + half,
          some (.laneY q.1 q.2, .geometry 5))),
        all.map (fun q => (2 ≤ q.2 ∧ v (.laneY q.1 q.2) - v (.laneY q.1 (q.2 - 1)) ≤ 2 * half,
          some (.laneY q.1 q.2, .geometry 6))),
        [(v .zMax < v .saddleHeight + v .upperSeat + 2 * v .dmax + v .tongHang + v .clearance,
          some (.zMax, .geometry 7))] ]
    FirstHolds (imageFail d) rows none
      ∧ (imageFail d = none → RowsFit (buildImage d) ∧ ZonesDistinct (buildImage d))
      ∧ (let g := buildImage d
         (∀ z, z ∈ g.zones ↔ z.id ∈ zs ∧ z.x0 = v (.zoneXStart z.id) ∧ z.x1 = v (.zoneXEnd z.id)
            ∧ z.y0 = v (.zoneYStart z.id) ∧ z.y1 = v (.zoneYEnd z.id) ∧ z.ceiling = v (.zoneCeiling z.id)
            ∧ z.bay = n (.zoneBay z.id) ∧ (v (.zoneKind z.id) = 0 → z.kind = .exclusive)
            ∧ (v (.zoneKind z.id) = 1 → z.kind = .truckBay) ∧ (v (.zoneKind z.id) = 2 → z.kind = .slow)
            ∧ (v (.zoneKind z.id) = 3 → z.kind = .noLoad) ∧ (outside (.zoneKind z.id) 0 3 → z.kind = .exclusive))
          ∧ (∀ r row, 1 ≤ r → (g.rows[r - 1]? = some row ↔ r ≤ n .rowCount ∧ row.centre = v (.rowCentre r)
              ∧ row.half = v (.rowHalf r) ∧ row.lanes = (lanes r).map fun p => v (.laneY r p)))
          ∧ (g.runway, g.span, g.left, g.right, g.reaction, g.creep, g.gapPeer, g.gapWall, g.clearance, g.tongHang,
              g.zMin, g.zMax, g.travelHeight)
            = (run, span, v .leftExtent, v .rightExtent, v .reaction, v .creep, v .gapPeer, v .gapWall, v .clearance,
              v .tongHang, v .zMin, v .zMax, v .travelHeight)
          ∧ (g.gantryVmax, g.gantryDec, g.trolleyVmax, g.trolleyDec, g.hoistVmax)
            = (⟨v (.gantryVmax false), v (.gantryVmax true)⟩, ⟨v (.gantryDec false), v (.gantryDec true)⟩,
              ⟨v (.trolleyVmax false), v (.trolleyVmax true)⟩, ⟨v (.trolleyDec false), v (.trolleyDec true)⟩,
              ⟨v (.hoistVmax false), v (.hoistVmax true)⟩)
          ∧ (g.unknown.left, g.unknown.right, g.unknown.vmaxEmpty, g.unknown.vmaxLoaded, g.unknown.decEmpty,
              g.unknown.decLoaded, g.unknown.reaction)
            = (n .unknownLeft, n .unknownRight, n .unknownVmax, n .unknownVmax, n .unknownDec, n .unknownDec,
              n .unknownReaction)
          ∧ (g.saddleHeight, g.upperSeat, g.dmax, g.saddleMax, g.columnHalf, g.tierTolerance, g.upperOversize,
              g.widthTolerance, g.upperRatio, g.upperPenalty)
            = (v .saddleHeight, v .upperSeat, v .dmax, v .saddleMax, v .columnHalf, v .tierTolerance, v .upperOversize,
              v .widthTolerance, v .upperRatio, v .upperPenalty)
          ∧ (g.scaleSpan, g.calibratedZero, g.zeroWindow, g.tare, g.division, g.ratedCapacity, g.toleranceKg,
              g.tolerancePm)
            = (v .scaleSpan, v .calibratedZero, v .zeroWindow, v .tare, v .division, v .ratedCapacity, v .toleranceKg,
              v .tolerancePm)))
  ∧ (∀ z, ∀ p ∈ [Param.zoneKind z, .zoneXStart z, .zoneXEnd z, .zoneYStart z, .zoneYEnd z, .zoneCeiling z, .zoneBay z],
      indexOk p = true ↔ 1 ≤ z ∧ z ≤ 16)
  ∧ (∀ r, ∀ p ∈ [Param.rowCentre r, .rowHalf r, .lowerCount r], indexOk p = true ↔ 1 ≤ r ∧ r ≤ 40)
  ∧ (∀ r k, indexOk (.laneY r k) = true ↔ 1 ≤ r ∧ r ≤ 40 ∧ 1 ≤ k ∧ k ≤ 12)
  ∧ ∀ p, indexOk p = false → (∃ z, p ∈ [Param.zoneKind z, .zoneXStart z, .zoneXEnd z, .zoneYStart z, .zoneYEnd z,
      .zoneCeiling z, .zoneBay z]) ∨ (∃ r, p ∈ [Param.rowCentre r, .rowHalf r, .lowerCount r]) ∨ ∃ r k, p = .laneY r k

/-- CONFIGURE of 1 to 64 entries of known parameters, none twice, sets each value of the image under construction, and
any other CONFIGURE sets none (R214). START with a valid image forms the slot map, every record UNKNOWN, takes the
calibrated zero, and enters JOINING with a JOIN of a nonzero pattern queued, the next after 200 ms and the end of
joining after 1,000 ms; with an invalid image it is REFUSED with the failed check (R215, R216, R18). The held sample
is clamped without a report (the model's choice, log entry 28). -/
def Obligations.ConfigureAndStart : Prop :=
  (∀ es : List ConfigEntry, configFail es = none ↔
    es ≠ [] ∧ es.length ≤ 64 ∧ (∀ e ∈ es, ∃ p, e.param = some p ∧ indexOk p = true) ∧ (es.map (·.param)).Nodup)
  ∧ (∀ (s : State) (tag : ReqTag) (es : List ConfigEntry), TakesNow s tag (.configure es) → s.rlc.nodeState = .config →
    (∀ why, configFail es = some why → Settles .configure s (afterAnswer s tag (.configure es) .badArg why .none))
    ∧ (configFail es = none → ∃ d,
      (let v := afterAnswer s tag (.configure es) .ok .none (.count es.length)
       Settles .configure s { v with cpt := { v.cpt with draft := d } })
      ∧ (∀ e ∈ es, ∀ p, e.param = some p → draftGet d p = e.value)
      ∧ ∀ p, (∀ e ∈ es, e.param ≠ some p) → draftGet d p = draftGet s.cpt.draft p))
  ∧ ∀ (s : State) (tag : ReqTag), TakesNow s tag .start → s.rlc.nodeState = .config →
    (∀ p c, imageFail s.cpt.draft = some (p, c) →
      Settles .start s (afterAnswer s tag .start .refused (.badImage p c) .none))
    ∧ (imageFail s.cpt.draft = none →
      let img := buildImage s.cpt.draft
      ∃ u pat, exec .start s = .next u
        ∧ responses u.cpt = responses s.cpt ++ [responseTo tag .start .ok .none .none]
        ∧ u.rlc.nodeState = .joining ∧ u.rlc.pattern = some pat ∧ 1 ≤ pat ∧ pat ≤ 65535
        ∧ u.rlc.joinDue = some (s.now + 200) ∧ u.rlc.joinEnd = some (s.now + 1000) ∧ u.rlc.joinConfirmed = false
        ∧ u.rlc.queue.head? = some (.fixed (.join pat u.sample.x))
        ∧ u.cpt.image = some img
        ∧ u.smu.slots = (allSlots img).map (fun id => { id := id, data :=
            { content := .unknown, coil := {}, blocked := false, disputed := false, source := none } })
        ∧ u.wgu.zero = img.calibratedZero ∧ u.epu.record.permits = zeroPermits .state
        ∧ (∀ p, s.cpt.held = some p →
            u.cpt.held = some { p with x := clamp 0 img.runway p.x, y := clamp 0 img.span p.y })
        ∧ (PeersOk s → ∀ p ∈ u.ptb.peers,
            0 ≤ p.x ∧ p.x ≤ img.runway ∧ ∀ f, p.profile = some f → profileInRange f = true))

/-- RESTART discards the peer table, the claims, the orders and the truck requests, keeps the slot map, the truck
records and the image, and leads by the straps to JOINING with an image, CONFIG without one, or FAULT (R25, R26,
R220). PARK needs no active order and an EMPTY load; it removes every claim and truck request, and each HELD claim of
a bay opens that bay's release window (R21, R86, R93, R161). UNPARK leads to RESUMING for 300 ms (R23). Of the
weighing RESTART ends a capture and a session (that it reports nothing of what it discards is the model's choice, log
entry 52, and is not stated here). -/
def Obligations.RestartParkAndUnpark : Prop :=
  (∀ (s : State) (tag : ReqTag) (t : Straps), TakesNow s tag .restart → s.work = [] →
    ∃ u, exec (.restart t) s = .next u
      ∧ responses u.cpt = responses s.cpt ++ [responseTo tag .restart .ok .none .none]
      ∧ u.now = s.now ∧ u.pending = s.pending ∧ u.lcp = s.lcp ∧ u.smu = s.smu ∧ u.tbu.trucks = s.tbu.trucks
      ∧ u.cpt.image = s.cpt.image ∧ u.cpt.held = s.cpt.held ∧ u.cpt.stream = none
      ∧ u.ptb = { peers := [], fullTold := false } ∧ u.clu = { claims := [], conflicts := [], doubleHeld := [] }
      ∧ u.moc.active = none ∧ u.moc.waiting = [] ∧ u.moc.ended = []
      ∧ u.tbu.required = PerBay.all 0 ∧ u.tbu.requests = PerBay.all none ∧ u.tbu.limitTold = PerBay.all false
      ∧ u.wgu = { s.wgu with capture := none, session := none }
      ∧ u.moc.untracked = (if s.wgu.loadClass = .empty then s.moc.untracked else some .restart)
      ∧ u.rlc.straps = some t ∧ u.rlc.noticeSeq = s.rlc.noticeSeq ∧ u.rlc.rxBad = s.rlc.rxBad
      ∧ u.rlc.txDropped = s.rlc.txDropped
      ∧ u.rlc.lastStop = (if s.rlc.nodeState = .fault then .restartFromFault else .restartRequest)
      ∧ u.epu.record.permits = zeroPermits .state
      ∧ (∀ k, 1 ≤ k ∧ t.value.val = k ∨ t.value.val = 0 ∧ t.eighthTied = true ∧ k = 8 →
          u.rlc.craneNo = some k ∧ u.rlc.lastFault = s.rlc.lastFault
            ∧ (s.cpt.image = none → u.rlc.nodeState = .config ∧ u.cpt.draft = [])
            ∧ (s.cpt.image ≠ none → u.rlc.nodeState = .joining ∧ u.cpt.draft = s.cpt.draft
                ∧ u.rlc.joinEnd = some (s.now + 1000)))
      ∧ (t.value.val = 0 → t.eighthTied = false →
          u.rlc.craneNo = none ∧ u.rlc.nodeState = .fault ∧ u.rlc.lastFault = .noNumber))
  ∧ (∀ (s : State) (tag : ReqTag), TakesNow s tag .park → s.rlc.nodeState = .running →
    (s.moc.active ≠ none → Settles .park s (afterAnswer s tag .park .refused .orderActive .none))
    ∧ (s.moc.active = none → s.wgu.loadClass ≠ .empty →
      Settles .park s (afterAnswer s tag .park .refused .loadNotEmpty .none))
    ∧ (s.moc.active = none → s.wgu.loadClass = .empty → ∃ u, exec .park s = .next u
      ∧ (let v := afterAnswer s tag .park .ok .none .none
         HandOnFrame { v with rlc := { v.rlc with nodeState := .parked, beaconDue := some (s.now + 1000),
                                                  notices := u.rlc.notices } } u)
      ∧ u.clu.claims = [] ∧ u.epu.record.permits = zeroPermits .state
      ∧ (∀ c ∈ s.clu.claims, c.state = .held → ∀ bay, 1 ≤ bay → bay ≤ 4 → ownBay s c.target = some bay →
          ∃ k, u.rlc.truckWin.get bay = some { release := true, left := k })
      ∧ ∀ bay, u.tbu.requests.get bay = none))
  ∧ ∀ (s : State) (tag : ReqTag), TakesNow s tag .unpark → s.rlc.nodeState = .parked →
    ∃ u d, exec .unpark s = .next u
      ∧ (let v := afterAnswer s tag .unpark .ok .none .none
         HandOnFrame { v with rlc := { v.rlc with nodeState := .resuming, resumeEnd := some (s.now + 300),
                                                  beaconDue := some d, notices := u.rlc.notices } } u)
      ∧ s.now + 100 ≤ d ∧ d ≤ s.now + 120
      ∧ (s.rlc.queue.length < 16 → .beacon ∈ u.rlc.queue)

/-- What requests and truck records must carry. An order (R173, R175): fields in range, a form that its kind allows,
slots that exist, rows in order and within the count, a bay with a TRUCK_BAY zone and a position 1 to 6, a destination
slot that is not its source; its source is BURIED where the pick test answers so. A tier code or kind code that names
nothing is refused with the fields (R173). The content of a truck record by the first row of R153 that fails, its sums
formed by R152: each increment of a weight on a group is weight × share / 1000 rounded up, and 0 beyond the three
groups. -/
def Obligations.ArgumentsAndContentsAreChecked : Prop :=
  (∀ (img : Image) (bay : Nat),
    let bound (zn : Zone) : Prop := zn ∈ img.zones ∧ zn.kind = .truckBay ∧ zn.bay = bay
    (∀ zn, bayZone img bay = some zn → bound zn ∧ 1 ≤ bay ∧ bay ≤ 4)
      ∧ (1 ≤ bay → bay ≤ 4 → (∃ zn, bound zn) → ∃ zn, bayZone img bay = some zn))
  ∧ (∀ (img : Image) (d : Dest), destOk img d = true ↔ match d with
      | .slot id => slotExists img id = true
      | .area r1 r2 tier => 1 ≤ r1 ∧ r1 ≤ r2 ∧ r2 ≤ img.rows.length ∧ tier ≠ none
      | .bay b => ∃ zn, bayZone img b = some zn)
  ∧ (∀ (img : Image) (o : Order), orderOk img o = true ↔
      (1 ≤ o.id ∧ o.id ≤ 65535 ∧ o.prio ≤ 7 ∧ 1 ≤ o.coil ∧ o.coil ≤ 4294967295)
        ∧ (∀ w, o.weight = some w → 1 ≤ w ∧ w ≤ 99990) ∧ (∀ d, o.diameter = some d → 1 ≤ d ∧ (d : Int) ≤ img.dmax)
        ∧ (∀ w, o.width = some w → 1 ≤ w ∧ w ≤ 5000)
        ∧ ((o.kind = some .store ∨ o.kind = some .unload) ∧ (∃ b p r1 r2 t, o.source = .bay b p ∧ o.dest = .area r1 r2 t)
          ∨ o.kind = some .relocate ∧ (∃ k, o.source = .slot k) ∧ (∀ b, o.dest ≠ .bay b)
          ∨ o.kind = some .load ∧ (∃ k b, o.source = .slot k ∧ o.dest = .bay b))
        ∧ (∀ k, o.source = .slot k → slotExists img k = true ∧ o.dest ≠ .slot k)
        ∧ (∀ b p, o.source = .bay b p → (∃ zn, bayZone img b = some zn) ∧ 1 ≤ p ∧ p ≤ 6)
        ∧ destOk img o.dest = true ∧ ∀ d, o.alt = some d → destOk img d = true ∧ ∀ b, d ≠ .bay b)
  ∧ (∀ (s : State) (img : Image) (o : Order) (ids : List Nat), buriedAt s img o = some ids ↔
      ∃ k, o.source = .slot k ∧ pickTest s img k = .buried ids)
  ∧ (∀ (p : Position) (w g : Nat),
      let share := if g = 1 then p.share1 else if g = 2 then p.share2 else if g = 3 then p.share3 else 0
      w * share ≤ 1000 * increment p w g ∧ (1 ≤ increment p w g → 1000 * (increment p w g - 1) < w * share))
  ∧ ∀ (img : Image) (zn : Zone) (d : TruckData),
    let lying (p : Position) : Nat := if p.loaded then p.weight.getD 0 else 0
    let groups := d.limits.length
    let within (sum : Nat) (loads : List Nat) : Prop := sum ≤ d.allowance
      ∧ ∀ (g : Nat) (l m : Nat), loads[g]? = some l → d.limits[g]? = some m → l ≤ m
    let rows : List (Prop × Option ContentFail) :=
      [ (d.allowance < 1 ∨ 99990 < d.allowance ∨ d.deckHeight < 300 ∨ 2500 < d.deckHeight, some .allowance),
        (groups < 1 ∨ 3 < groups ∨ (∃ l ∈ d.limits, l < 1 ∨ 99990 < l), some .groups),
        (d.positions.length < 1 ∨ 6 < d.positions.length, some .positionCount),
        ((∃ p ∈ d.positions, (groups < 2 ∧ p.share2 ≠ 0) ∨ (groups < 3 ∧ p.share3 ≠ 0)
          ∨ p.share1 + p.share2 + p.share3 ≠ 1000), some .shares),
        ((∃ p ∈ d.positions, p.maxKg < 1 ∨ 60000 < p.maxKg ∨ zn.x1 - zn.x0 < (p.xOffset : Int) ∨ img.span < (p.y : Int)),
          some .positionPlace),
        (d.plan.length ≠ d.positions.length ∨ (∃ k, 1 ≤ k ∧ k ≤ d.positions.length ∧ d.plan.count k ≠ 1),
          some .planOrder),
        ((∃ p ∈ d.positions, (p.loaded = true ∧ ¬ ((∃ c, p.coilId = some c ∧ 1 ≤ c ∧ c ≤ 4294967295)
            ∧ ∃ w, p.weight = some w ∧ w ≤ 99990))
          ∨ (p.loaded = false ∧ (p.coilId ≠ none ∨ p.weight ≠ none))), some .loadedFields) ]
    FirstHolds (arriveFail img zn d)
        (rows ++ [(¬ within (cumulativeOf d.positions) (groupLoads d), some .overLimit)]) none
      ∧ stateFail img zn .noTruck = none
      ∧ (∀ ready sum loads, FirstHolds (stateFail img zn (.present ready d sum loads))
        (rows ++ [(sum ≠ cumulativeOf d.positions ∨ loads ≠ groupLoads d ∨ ¬ within sum loads, some .sums)]) none)
      ∧ cumulativeOf d.positions = (d.positions.map lying).sum
      ∧ (groupLoads d).length = groups
      ∧ ∀ g l, (groupLoads d)[g]? = some l → l = (d.positions.map fun p => increment p (lying p) (g + 1)).sum

/-- SUBMIT_ORDER in RUNNING by the first test of R175 that fails, else OK with the order put by priority and
activation tested. CANCEL_ORDER by the phase: a waiting order is removed, an active one that has not lifted ends
CANCELLED, a lifted one is diverted to its alternate, in LIFT staying there and from a later phase back in DECIDE with
its destination claims released, or refused (R194). REDIRECT gives an order in HOLD_LOAD a new primary and returns it
to DECIDE (R187). A refusal has no other effect; the state stated for the rest is the one in which the hand-ons still
stand to be served. The model's readings: DUPLICATE_ID and QUEUE_FULL are reasons of REFUSED (log entry 31), and a
waiting order's cancel leaves the untracked mark (log entry 32). -/
def Obligations.OrderRequestsChangeTheQueue : Prop :=
  (∀ (s : State) (tag : ReqTag) (o : Order) (img : Image), TakesNow s tag (.submitOrder o) →
    s.rlc.nodeState = .running → s.cpt.image = some img →
    let r : Request := .submitOrder o
    let answers (st : Status) (why : Reason) : Prop := Settles .submitOrder s (afterAnswer s tag r st why .none)
    let free : Prop := orderOk img o = true ∧ o.id ∉ queueIds s.moc
    (orderOk img o = false → answers .badArg .argument)
      ∧ (orderOk img o = true → o.id ∈ queueIds s.moc → answers .refused .duplicateId)
      ∧ (free → 8 ≤ (queueIds s.moc).length → answers .refused .queueFull)
      ∧ (free → (queueIds s.moc).length < 8 →
          (∀ ids, buriedAt s img o = some ids → answers .refused (.sourceBuried ids))
            ∧ (buriedAt s img o = none → ∃ u, exec .submitOrder s = .next (State.finish u)
                ∧ HandOnFrame (afterAnswer s tag r .ok .none .none) u
                ∧ u.moc = { s.moc with waiting := insertOrder o s.moc.waiting } ∧ u.clu = s.clu ∧ u.tbu = s.tbu
                ∧ u.work = s.work ++ [.activate])))
  ∧ (∀ (s : State) (tag : ReqTag) (id : Nat), TakesNow s tag (.cancelOrder id) → s.rlc.nodeState = .running →
    let r : Request := .cancelOrder id
    let refuses (why : Reason) : Prop := Settles .cancelOrder s (afterAnswer s tag r .refused why .none)
    (id ∉ queueIds s.moc → refuses .noOrder)
      ∧ (∀ o, (∀ a, s.moc.active = some a → a.ord.id ≠ id) → (s.moc.waiting.find? fun q => q.id == id) = some o →
          ∃ u, exec .cancelOrder s = .next (State.finish u)
            ∧ HandOnFrame (afterAnswer s tag r .ok .none .none) u ∧ u.work = s.work
            ∧ u.moc = { s.moc with
                waiting := s.moc.waiting.filter (fun q => q.id != id),
                ended := ({ ord := o, ending := .cancelled, result := none, destUse := none }
                  :: s.moc.ended).take 4 })
      ∧ ∀ a, s.moc.active = some a → a.ord.id = id →
          (a.phase = .opening ∨ a.phase = .clear → refuses .orderEnding)
            ∧ (a.phase ≠ .opening → a.phase ≠ .clear →
                (a.lifted = true → a.ord.alt = none ∨ a.primaryDropped = true → refuses .holdingLoad)
                  ∧ (a.lifted = true → a.ord.alt ≠ none → a.primaryDropped = false → s.cpt.image ≠ none →
                      ∃ u b, exec .cancelOrder s = .next (State.finish u)
                        ∧ HandOnFrame (afterAnswer s tag r .ok .none .none) u
                        ∧ u.moc.active = some b ∧ b.ord = a.ord ∧ b.primaryDropped = true
                        ∧ Reports s u (.cancelDiverted a.ord.id)
                        ∧ (a.phase = .lift → b = { a with primaryDropped := true } ∧ u.clu = s.clu ∧ u.work = s.work)
                        ∧ (a.phase = .decide ∨ a.phase = .holdLoad ∨ a.phase = .claimDest ∨ a.phase = .toDest
                              ∨ a.phase = .placeLower →
                            b.phase = .decide ∧ b.phaseAt = s.now ∧ b.destClaims = []
                              ∧ ∀ t ∈ a.destClaims, t ∉ a.srcClaims → (∀ z ∈ a.transit, t ≠ .zone z) →
                                  ∀ c, findClaim s t = some c → c.holders = [.order] → findClaim u t = none))
                  ∧ (a.lifted = false → ∃ u, exec .cancelOrder s = .next (State.finish u)
                      ∧ HandOnFrame (afterAnswer s tag r .ok .none .none) u
                      ∧ u.moc.active = none ∧ u.moc.waiting = s.moc.waiting
                      ∧ u.moc.ended.head? = some
                          { ord := a.ord, ending := .cancelled, result := a.result, destUse := a.destUse })))
  ∧ ∀ (s : State) (tag : ReqTag) (id : Nat) (d : Dest) (img : Image), TakesNow s tag (.redirect id d) →
    s.rlc.nodeState = .running → s.cpt.image = some img →
    let r : Request := .redirect id d
    let answers (st : Status) (why : Reason) : Prop := Settles .redirect s (afterAnswer s tag r st why .none)
    (destOk img d = false → answers .badArg .argument)
      ∧ (destOk img d = true → id ∉ queueIds s.moc → answers .refused .noOrder)
      ∧ (destOk img d = true → id ∈ queueIds s.moc →
          ((∀ a, s.moc.active = some a → a.ord.id ≠ id ∨ a.phase ≠ .holdLoad) → answers .refused .notHeld)
            ∧ ∀ a, s.moc.active = some a → a.ord.id = id → a.phase = .holdLoad →
                ∃ u b, exec .redirect s = .next (State.finish u)
                  ∧ HandOnFrame (afterAnswer s tag r .ok .none .none) u
                  ∧ u.moc = { s.moc with active := some b } ∧ b.phase = .decide ∧ b.ord = { a.ord with dest := d }
                  ∧ b.primaryDropped = false ∧ b.bayExcluded = false ∧ b.excluded = a.excluded)

/-- Activation (R177): in RUNNING with no active order the head of the waiting orders is put to the source test.
ELIGIBLE, CLAIMED and TRUCK_STALE make it the active order in CLAIM_SOURCE, its coil record formed from the order and,
where the order leaves a field out, from the source, its source claims asked for (R178; an ask refused is asked again,
log entry 55), and the test of those claims handed on; any other answer ends it FAILED with that reason, its record
kept, and activation is tested again for the next head. Otherwise activation changes nothing. This is the hand-on with
which each submission, each end of an order and the entry to RUNNING end (log entry 9). -/
def Obligations.ActivationTestsTheHeadOrder : Prop :=
  (∀ s : State, s.rlc.nodeState ≠ .running ∨ s.moc.active ≠ none ∨ s.moc.waiting = [] → serveWork s .activate = s)
  ∧ ∀ (s : State) (img : Image) (o : Order) (rest : List Order) (ans : SourceAnswer), s.cpt.image = some img →
    ZonesDistinct img → s.rlc.nodeState = .running → s.moc.active = none → s.moc.waiting = o :: rest →
    (∀ bay pos, o.source = .bay bay pos → 1 ≤ bay ∧ bay ≤ 4) → SourceAnswers s img o ans →
    let u := serveWork s .activate
    let given : Coil := match o.source with
      | .slot id => match slotRec s.smu id with
        | some r => r.coil
        | none => {}
      | .bay bay pos => { weight := recordedWeight s bay pos }
    u.moc.waiting = rest
      ∧ (ans = .eligible ∨ ans = .claimed ∨ ans = .truckStale →
          AsksFor u (sourceTargets img o) ∧ .progress ∈ u.work ∧ ∃ b, u.moc.active = some b
            ∧ b.ord = o ∧ b.phase = .claimSource ∧ b.phaseAt = s.now ∧ b.srcClaims = sourceTargets img o
            ∧ b.coil.id = some o.coil
            ∧ (∀ v, o.weight = some v → b.coil.weight = some v) ∧ (o.weight = none → b.coil.weight = given.weight)
            ∧ (∀ v, o.diameter = some v → b.coil.diameter = some v)
            ∧ (o.diameter = none → b.coil.diameter = given.diameter)
            ∧ (∀ v, o.width = some v → b.coil.width = some v) ∧ (o.width = none → b.coil.width = given.width)
            ∧ b.destClaims = [] ∧ b.transit = [] ∧ b.result = none ∧ b.destUse = none ∧ b.diverted = none
            ∧ b.lifted = false ∧ b.excluded = [] ∧ b.bayExcluded = false ∧ b.primaryDropped = false
            ∧ b.gripHeight = none)
      ∧ ∀ why, ans = .failed why → u.moc.active = none ∧ .activate ∈ u.work
          ∧ u.moc.ended.head? = some { ord := o, ending := .failed why, result := none, destUse := none }

/-- A truck request (TRUCK_ARRIVE, TRUCK_READY, TRUCK_HOLD, TRUCK_DEPART) in RUNNING by the first test of R156 that
fails, else ACCEPTED: kept pending from now, with the bay's claim asked for the truck, and no record changed. It ends
5,000 ms after its acceptance without a change (R156, R160; the clock moves on to that moment, log entry 1). An
order's given destination counts as using its bay also while the order is diverted (the model's reading, log entry
45). A refusal has no other effect. The state stated for the acceptance is the one in which the hand-ons still stand
to be served. -/
def Obligations.TruckRequestsWaitForTheirClaim : Prop :=
  (∀ (s : State) (tag : ReqTag) (bay : Nat) (k : TruckReqKind) (straps : Straps),
    let r : Request := match k with
      | .arrive d => .truckArrive bay d
      | .ready => .truckReady bay
      | .hold => .truckHold bay
      | .depart => .truckDepart bay
    TakesNow s tag r → s.rlc.nodeState = .running →
    let answers (st : Status) (why : Reason) : Prop :=
      Settles (commandFor (reqKind r) straps) s (afterAnswer s tag r st why .none)
    ((s.cpt.image = none ∨ ∃ img, s.cpt.image = some img ∧ bayZone img bay = none) → answers .badArg .argument)
      ∧ ∀ img zn, s.cpt.image = some img → bayZone img bay = some zn →
          let t : Target := .zone zn.id
          let stops : Prop := k = .depart ∧ usesBay s.moc bay = true
          let full : Prop := findClaim s t = none ∧ 6 ≤ s.clu.claims.length
          (s.tbu.requests.get bay ≠ none → answers .busy .none)
            ∧ (s.tbu.requests.get bay = none → stops → answers .refused .loadActive)
            ∧ (s.tbu.requests.get bay = none → ¬ stops → full → answers .refused .claimListFull)
            ∧ (s.tbu.requests.get bay = none → ¬ stops → ¬ full → targetOk img t = true →
                ∃ u c, exec (commandFor (reqKind r) straps) s = .next (State.finish u)
                  ∧ HandOnFrame (afterAnswer s tag r .accepted .none .none) u
                  ∧ u.moc = s.moc ∧ u.tbu = { s.tbu with
                      requests := s.tbu.requests.set bay (some { kind := k, acceptedAt := s.now, newer := false }) }
                  ∧ findClaim u t = some c ∧ .truck bay ∈ c.holders
                  ∧ (findClaim s t = none → c.prio = 7 ∧ c.state ≠ .held)))
  ∧ ∀ (s : State) (bay : Nat) (q : TruckReq), 1 ≤ bay → bay ≤ 4 → s.tbu.requests.get bay = some q →
    ∃ u, exec (.requestTimerExpiry bay) s = .next u
      ∧ HandOnFrame { s with now := max s.now (q.acceptedAt + 5000) } u
      ∧ u.tbu.requests.get bay = none ∧ u.tbu.trucks.get bay = s.tbu.trucks.get bay

/-- A truck request pending for a bay, when the bay's claim is HELD (R157 to R159): after the version check one that
is not a DEPART waits while the bay is STALE; any other is tested against the record as it stands, and ends: failed
with the first test that fails, the record left as it was, or with the record changed at a version one above the own
and the required one, a TRUCK_STATE queued, and in both the bay's claim released where no other holder keeps it. While
the claim is not HELD the request waits for it. This holds of the hand-on in which the claim unit tells the truck unit
of the change (log entry 9), and from the end of the settle timer of the request's claim, stated where no order is
active and no peer holds the zone. -/
def Obligations.TruckRequestsAreApplied : Prop :=
  ∀ (s : State) (img : Image) (zn : Zone) (bay : Nat) (q : TruckReq), s.cpt.image = some img →
    bayZone img bay = some zn → s.tbu.requests.get bay = some q →
    let t : Target := .zone zn.id
    let own := s.tbu.trucks.get bay
    let need := max (s.tbu.required.get bay) (highestSeen s.ptb bay)
    let v := max own.version need + 1
    let ended (u : State) : Prop := u.tbu.requests.get bay = none
      ∧ ∀ c, findClaim s t = some c → c.holders = [.truck bay] → s.rlc.nodeState = .running → findClaim u t = none
    let fails (u : State) (why : TruckFail) : Prop :=
      ended u ∧ u.tbu.trucks.get bay = own ∧ Reports s u (.truckRequestFailed bay why)
    let becomes (u : State) (c : TruckContent) : Prop :=
      (65535 < v → fails u .versionLimit)
        ∧ (v ≤ 65535 → ended u ∧ u.tbu.trucks.get bay = { version := v, content := c }
            ∧ Reports s u (.truckUpdated bay v .own)
            ∧ (s.rlc.queue.length < 16 → .fixed (.truckState bay v c) ∈ u.rlc.queue))
    let applied (u : State) : Prop := match q.kind, own.content with
      | .arrive d, .noTruck => (∀ f, arriveFail img zn d = some f → fails u (.content f))
          ∧ (arriveFail img zn d = none →
              becomes u (.present false d (cumulativeOf d.positions) (groupLoads d)))
      | .arrive _, .present _ _ _ _ => fails u .notEmptyBay
      | .ready, .noTruck => fails u .noTruck
      | .ready, .present true _ _ _ => fails u .noChange
      | .ready, .present false d c l => becomes u (.present true d c l)
      | .hold, .noTruck => fails u .noTruck
      | .hold, .present true d c l => becomes u (.present false d c l)
      | .hold, .present false _ _ _ => fails u .noChange
      | .depart, .noTruck => fails u .noTruck
      | .depart, .present _ _ _ _ =>
        (usesBay s.moc bay = true → fails u .loadActive) ∧ (usesBay s.moc bay = false → becomes u .noTruck)
    let outcome (u : State) : Prop :=
      (∀ b, 1 ≤ b → b ≤ 4 → b ≠ bay → u.tbu.trucks.get b = s.tbu.trucks.get b
          ∧ u.tbu.requests.get b = s.tbu.requests.get b ∧ u.tbu.required.get b = s.tbu.required.get b)
        ∧ u.tbu.required.get bay = need
        ∧ (own.version < need → q.kind ≠ .depart →
            u.tbu.requests.get bay = some { q with newer := true } ∧ u.tbu.trucks.get bay = own
              ∧ claimState u t = some .held)
        ∧ (need ≤ own.version ∨ q.kind = .depart → applied u)
    (claimState s t = some .held → outcome (serveWork s (.truckClaim bay)))
    ∧ (claimState s t ≠ some .held → serveWork s (.truckClaim bay) = { s with tbu := { s.tbu with
        requests := s.tbu.requests.set bay (some { q with newer := false }) } })
    ∧ ∀ c, findClaim s t = some c → c.state = .asking → c.holders = [.truck bay] → s.rlc.nodeState = .running →
        s.work = [] → s.moc.active = none → ZonesDistinct img → (∀ p ∈ s.ptb.peers, ¬ HoldsTarget p t) →
        ∃ u, exec (.settleTimerExpiry t) s = .next u ∧ outcome u

/-- MAP_LOAD in RUNNING replaces the content and coil fields of a slot that is not blocked, keeping its flag, and
clears disputed (R103). SLOT_BLOCK and SLOT_UNBLOCK set the blocked flag and issue a NOTICE where it was not so
already (R104, R12). CLAIM_FORCE_CLEAR empties the claims copy of a LOST peer and marks it cleared (R89). A refusal,
and a block or unblock of a slot that is so already, have no other effect. -/
def Obligations.MapAndClaimRequests : Prop :=
  (∀ (s : State) (tag : ReqTag) (slot : Nat) (content : Option Content) (coil : Coil),
    TakesNow s tag (.mapLoad slot content coil) → s.rlc.nodeState = .running →
    let q : Request := .mapLoad slot content coil
    let answers (st : Status) (why : Reason) : Prop := Settles .mapLoad s (afterAnswer s tag q st why .none)
    (s.cpt.image = none ∨ slotRec s.smu slot = none ∨ content = none → answers .badArg .argument)
      ∧ ∀ img r c, s.cpt.image = some img → slotRec s.smu slot = some r → content = some c →
          let good : Prop := (c = .occupied ∨ coil = {}) ∧ coilInRange img coil = true
          (¬ good → answers .badArg .argument)
            ∧ (good → r.blocked = true → answers .ok .ignoredBlocked)
            ∧ (good → r.blocked = false → ∃ u, exec .mapLoad s = .next u
                ∧ HandOnFrame { afterAnswer s tag q .ok .none .none with smu := u.smu } u
                ∧ u.smu.tracking = s.smu.tracking
                ∧ slotRec u.smu slot = some { r with content := c, coil := coil, disputed := false,
                                                     source := some .mapLoad }
                ∧ ∀ id, id ≠ slot → slotRec u.smu id = slotRec s.smu id))
  ∧ (∀ (s : State) (tag : ReqTag) (slot : Nat) (on : Bool) (straps : Straps),
    let q : Request := if on then .slotBlock slot else .slotUnblock slot
    TakesNow s tag q → s.rlc.nodeState = .running →
    let c := commandFor (reqKind q) straps
    (s.cpt.image = none ∨ slotRec s.smu slot = none → Settles c s (afterAnswer s tag q .badArg .argument .none))
    ∧ ∀ img r, s.cpt.image = some img → slotRec s.smu slot = some r →
        (r.blocked = on → Settles c s (afterAnswer s tag q .ok .none .none))
          ∧ (r.blocked ≠ on → ∃ u, exec c s = .next u ∧
              (let v := afterAnswer s tag q .ok .none .none
              let k := if 65535 ≤ s.rlc.noticeSeq then 1 else s.rlc.noticeSeq + 1
              HandOnFrame { v with smu := u.smu, rlc := { v.rlc with noticeSeq := k, notices := u.rlc.notices } } u
                ∧ slotRec u.smu slot = some { r with blocked := on }
                ∧ (∀ id, id ≠ slot → slotRec u.smu id = slotRec s.smu id)
                ∧ u.rlc.notices.getLast? = some { left := 2, notice :=
                    { seq := k, slot := slot, kind := if on then .setBlock else .clearBlock, coil := {} } })))
  ∧ ∀ (s : State) (tag : ReqTag) (n : Nat), TakesNow s tag (.claimForceClear n) → s.rlc.nodeState = .running →
    let q : Request := .claimForceClear n
    let answers (st : Status) (why : Reason) : Prop := Settles .claimForceClear s (afterAnswer s tag q st why .none)
    let peer : Prop := 1 ≤ n ∧ n ≤ 8 ∧ s.rlc.craneNo ≠ some n
    (¬ peer → answers .badArg .argument)
      ∧ (peer → peerAt s.ptb n = none → answers .refused .noPeer)
      ∧ ∀ p, peer → peerAt s.ptb n = some p →
          (p.liveness ≠ .lost → answers .refused .peerNotLost)
            ∧ (p.liveness = .lost → ∃ u, exec .claimForceClear s = .next u
                ∧ HandOnFrame { afterAnswer s tag q .ok .none .none with ptb := u.ptb } u
                ∧ peerAt u.ptb n = some { p with claims := [], cleared := true }
                ∧ ∀ m, m ≠ n → peerAt u.ptb m = peerAt s.ptb m)

/-- WEIGH_VERIFY_ZERO in RUNNING by the first test of R148 that fails, else ACCEPTED with a VERIFY capture begun.
WEIGH_VERIFY_SPAN in RUNNING by the first test of R149 that fails, else ACCEPTED with a SPAN session open and
counting. A refusal has no other effect. -/
def Obligations.WeighVerifyRequests : Prop :=
  let spanIsOpen (s : State) : Prop := ∃ ss, s.wgu.session = some ss ∧ isOrder ss = false
  let moving (s : State) : Prop := s.sampleStale = true ∨ 20 ≤ |s.sample.vz|
  (∀ (s : State) (tag : ReqTag), TakesNow s tag .weighVerifyZero → s.rlc.nodeState = .running →
    let answers (st : Status) (why : Reason) : Prop :=
      Settles .weighVerifyZero s (afterAnswer s tag .weighVerifyZero st why .none)
    let lost : Prop := s.wgu.base = .locked .sensor
    let busy : Prop := s.wgu.capture ≠ none ∨ spanIsOpen s
    let loaded : Prop := s.sample.grip ≠ .opened ∨ s.wgu.loadClass ≠ .empty
    (lost → answers .badState .none)
      ∧ (¬ lost → busy → answers .busy .none)
      ∧ (¬ lost → ¬ busy → s.moc.active ≠ none → answers .refused .orderActive)
      ∧ (¬ lost → ¬ busy → s.moc.active = none → moving s → answers .refused .hookMoving)
      ∧ (¬ lost → ¬ busy → s.moc.active = none → ¬ moving s → loaded → answers .refused .hookNotEmpty)
      ∧ (¬ lost → ¬ busy → s.moc.active = none → ¬ moving s → ¬ loaded → ∃ u, exec .weighVerifyZero s = .next u
          ∧ (let v := afterAnswer s tag .weighVerifyZero .accepted .none .none
             HandOnFrame { v with wgu := { v.wgu with
               mark := u.wgu.mark,
               capture := some { kind := .verify, startedAt := s.now, count := 0, sum := 0 } } } u)))
  ∧ ∀ (s : State) (tag : ReqTag) (mass : Nat) (img : Image), TakesNow s tag (.weighVerifySpan mass) →
    s.rlc.nodeState = .running → s.cpt.image = some img →
    let q : Request := .weighVerifySpan mass
    let answers (st : Status) (why : Reason) : Prop := Settles .weighVerifySpan s (afterAnswer s tag q st why .none)
    let good : Prop := 1000 ≤ mass ∧ mass ≤ 99990 ∧ (mass : Int) % img.division = 0
    let busy : Prop := s.wgu.capture ≠ none ∨ spanIsOpen s
    let ready : Prop := s.wgu.base = .verifyZeroDone
    (¬ good → answers .badArg .argument)
      ∧ (good → busy → answers .busy .none)
      ∧ (good → ¬ busy → ¬ ready → answers .badState .none)
      ∧ (good → ¬ busy → ready → s.moc.active ≠ none → answers .refused .orderActive)
      ∧ (good → ¬ busy → ready → s.moc.active = none → moving s → answers .refused .hookMoving)
      ∧ (good → ¬ busy → ready → s.moc.active = none → ¬ moving s → ∃ u, exec .weighVerifySpan s = .next u
          ∧ (let v := afterAnswer s tag q .accepted .none .none
             HandOnFrame { v with wgu := { v.wgu with session := u.wgu.session } } u)
          ∧ u.wgu.session = some
              { kind := .span mass, openedAt := s.now, window := [], counting := true, atLiftOff := false })

/-- A read (READ_STATUS, READ_SLOT, READ_SLOTS, READ_PEER, READ_TRUCK, READ_ORDER) changes nothing but the request
buffer and the output queue, and a READ_SLOTS begins a stream (log entry 33); each answers with the records it names
(R45, R124, R150, R171, R198, R211, R212), a bay without a zone with its record marked so. The model's choices here:
BAD_ARG for a READ_PEER of a number that no peer can have (log entry 19), the time stamps (log entry 16), the age 0
without a raw sample (log entry 59). -/
def Obligations.ReadsAnswerWithTheState : Prop :=
  let counts (s : State) (p : SlotRec → Bool) : Nat := (s.smu.slots.filter fun t => p t.data).length
  let live (s : State) (l : Liveness) : Nat := (s.ptb.peers.filter fun p => p.liveness == l).length
  let bays (s : State) (p : TruckContent → Bool) : Nat :=
    ([1, 2, 3, 4].filter fun b => p (s.tbu.trucks.get b).content).length
  let claimed (s : State) (t : Target) : Option ClaimState := (findClaim s t).map (·.state)
  (∀ (s : State) (tag : ReqTag), TakesNow s tag .readStatus → ∃ v,
    exec .readStatus s = .next (afterAnswer s tag .readStatus .ok .none (.status v))
      ∧ v.nodeState = s.rlc.nodeState ∧ v.craneNo = s.rlc.craneNo ∧ v.straps = s.rlc.straps
      ∧ v.lastStop = s.rlc.lastStop ∧ v.lastFault = s.rlc.lastFault ∧ v.txFail = s.rlc.txFail
      ∧ (s.cpt.image ≠ none → v.image = .validated) ∧ (s.cpt.image = none → s.cpt.draft = [] → v.image = .none)
      ∧ (s.cpt.image = none → s.cpt.draft ≠ [] → v.image = .partly)
      ∧ v.txDropped = s.rlc.txDropped ∧ v.rxBad = s.rlc.rxBad ∧ v.cpBad = s.cpt.cpBad ∧ v.old = s.cpt.old
      ∧ v.cpOverrun = s.cpt.cpOverrun ∧ v.skipped = s.cpt.skipped ∧ v.dropped = s.cpt.dropped
      ∧ v.held = s.cpt.held ∧ v.sampleAge = s.sampleAge ∧ v.sampleStale = s.sampleStale
      ∧ v.peers = s.ptb.peers.length ∧ v.live = live s .live ∧ v.stale = live s .stale ∧ v.lost = live s .lost
      ∧ v.claims = s.clu.claims ∧ v.conflicts = s.clu.conflicts
      ∧ (∀ c, s.wgu.capture = some c → v.weighing.state = .capturing c.kind)
      ∧ (s.wgu.capture = none → v.weighing.state = .base s.wgu.base)
      ∧ v.weighing.zero = s.wgu.zero ∧ v.weighing.loadClass = s.wgu.loadClass
      ∧ v.weighing.windowCount = s.wgu.window.length ∧ v.weighing.overCount = s.wgu.overCount
      ∧ v.weighing.session = s.wgu.session.map (·.kind) ∧ v.weighing.last = s.wgu.last
      ∧ v.weighing.latest = s.lcp.latest ∧ v.weighing.bad = s.lcp.bad
      ∧ v.weighing.latestAge = (match s.lcp.latest with
          | none => 0
          | some r => s.now - r.arrival)
      ∧ (v.weighing.lost = true ↔ s.wgu.base = .locked .sensor)
      ∧ v.slotsUnknown = counts s (fun r => r.content == .unknown)
      ∧ v.slotsEmpty = counts s (fun r => r.content == .empty)
      ∧ v.slotsOccupied = counts s (fun r => r.content == .occupied)
      ∧ v.slotsUnknown + v.slotsEmpty + v.slotsOccupied = s.smu.slots.length
      ∧ v.slotsBlocked = counts s (fun r => r.blocked) ∧ v.slotsDisputed = counts s (fun r => r.disputed)
      ∧ v.baysNoTruck = bays s (fun c => c == .noTruck)
      ∧ v.baysHold = bays s (fun c => match c with
          | .present ready _ _ _ => !ready
          | .noTruck => false)
      ∧ v.baysNoTruck + v.baysHold + v.baysReady = 4
      ∧ v.baysStale = ([1, 2, 3, 4].filter fun b =>
          decide ((s.tbu.trucks.get b).version < s.tbu.required.get b)).length
      ∧ v.orders = (s.moc.active.map (·.ord.id)).toList.length + s.moc.waiting.length
      ∧ v.activeId = s.moc.active.map (·.ord.id) ∧ v.activePhase = s.moc.active.map (·.phase)
      ∧ v.untracked = s.moc.untracked)
  ∧ (∀ (s : State) (tag : ReqTag) (id : Nat), TakesNow s tag (.readSlot id) →
    (1 ≤ id → id ≤ 920 → ∃ v, exec .readSlot s = .next (afterAnswer s tag (.readSlot id) .ok .none (.slot v))
      ∧ v.id = id
      ∧ ((∀ img, s.cpt.image = some img → slotExists img id = false) → v.data = none)
      ∧ ∀ img p r, s.cpt.image = some img → slotPlace img id = some p → slotRec s.smu id = some r →
          v.data = some r ∧ v.x = p.x ∧ v.y = p.y ∧ v.seat = p.seat ∧ v.upper = (slotPos id).upper
            ∧ v.top = recTop img (slotPos id).upper r
            ∧ v.columnTop = (if (slotPos id).upper then none
                else some (columnTop img s.smu (slotPos id).row (slotPos id).p))
            ∧ v.ownClaim = claimed s (.slot id)
            ∧ ∀ n held, (⟨n, held⟩ : PeerClaim) ∈ v.peerClaims ↔
                ∃ q ∈ s.ptb.peers, q.n = n ∧ ∃ e ∈ q.claims, e.target = .slot id ∧ e.held = held)
    ∧ (id = 0 ∨ 921 ≤ id → exec .readSlot s = .next (afterAnswer s tag (.readSlot id) .badArg .argument .none)))
  ∧ (∀ (s : State) (tag : ReqTag) (start count : Nat), TakesNow s tag (.readSlots start count) →
    let q : Request := .readSlots start count
    let good : Prop := 1 ≤ start ∧ start ≤ 920 ∧ 1 ≤ count ∧ count ≤ 920
    let n := min count s.smu.slots.length
    let v := afterAnswer s tag q .ok .none (.count n)
    (¬ good → exec .readSlots s = .next (afterAnswer s tag q .badArg .argument .none))
      ∧ (good → s.cpt.stream ≠ none → exec .readSlots s = .next (afterAnswer s tag q .busy .none .none))
      ∧ (good → s.cpt.stream = none → n = 0 → exec .readSlots s = .next v)
      ∧ (good → s.cpt.stream = none → 1 ≤ n → exec .readSlots s = .next
          { v with cpt := { v.cpt with stream := some { seq := tag.seq, next := start, k := 1, n := n } } }))
  ∧ (∀ (s : State) (tag : ReqTag) (n : Nat), TakesNow s tag (.readPeer n) →
    let q : Request := .readPeer n
    (1 ≤ n → n ≤ 8 → s.rlc.craneNo ≠ some n →
        exec .readPeer s = .next (afterAnswer s tag q .ok .none (.peer n (peerAt s.ptb n) (trackAt s.smu n))))
      ∧ (n = 0 ∨ 9 ≤ n ∨ s.rlc.craneNo = some n →
        exec .readPeer s = .next (afterAnswer s tag q .badArg .argument .none)))
  ∧ (∀ (s : State) (tag : ReqTag) (bay : Nat), TakesNow s tag (.readTruck bay) →
    let q : Request := .readTruck bay
    (bay = 0 ∨ 5 ≤ bay → exec .readTruck s = .next (afterAnswer s tag q .badArg .argument .none))
      ∧ (1 ≤ bay → bay ≤ 4 →
          ((∀ img, s.cpt.image = some img → bayZone img bay = none) →
            exec .readTruck s = .next (afterAnswer s tag q .ok .none (.noBay (s.tbu.trucks.get bay))))
          ∧ ∀ img zn, s.cpt.image = some img → bayZone img bay = some zn → ∃ v,
              exec .readTruck s = .next (afterAnswer s tag q .ok .none (.bay v))
                ∧ v.truck = s.tbu.trucks.get bay ∧ v.required = s.tbu.required.get bay
                ∧ (v.stale = true ↔ v.truck.version < v.required) ∧ v.claim = claimed s (.zone zn.id)
                ∧ (∀ p ∈ s.ptb.peers, p.versions.get bay ≤ v.highest)
                ∧ (v.highest = 0 ∨ ∃ p ∈ s.ptb.peers, v.highest = p.versions.get bay)
                ∧ v.request = s.tbu.requests.get bay
                ∧ ∀ r, s.tbu.requests.get bay = some r → v.requestAge = s.now - r.acceptedAt))
  ∧ ∀ (s : State) (tag : ReqTag) (id : Nat), TakesNow s tag (.readOrder id) →
    let q : Request := .readOrder id
    (∀ a, s.moc.active = some a → a.ord.id = id → ∃ cs,
        exec .readOrder s = .next (afterAnswer s tag q .ok .none (.order (.active a cs)))
          ∧ ∀ t st, (⟨t, st⟩ : ClaimView) ∈ cs ↔
              ∃ c ∈ s.clu.claims, .order ∈ c.holders ∧ c.target = t ∧ c.state = st)
      ∧ ((∀ a, s.moc.active = some a → a.ord.id ≠ id) →
          (∀ o, (s.moc.waiting.find? fun o => o.id == id) = some o →
            exec .readOrder s = .next (afterAnswer s tag q .ok .none (.order (.queued o))))
          ∧ ((∀ o ∈ s.moc.waiting, o.id ≠ id) →
              (∀ e, (s.moc.ended.find? fun e => e.ord.id == id) = some e →
                exec .readOrder s = .next (afterAnswer s tag q .ok .none (.order (.ended e))))
              ∧ ((∀ e ∈ s.moc.ended, e.ord.id ≠ id) →
                exec .readOrder s = .next (afterAnswer s tag q .refused .noOrder .none))))

/-- A slot stream walks the existing slots by rising id from its start, from the highest on to the lowest, one record
a command while fewer than 8 wait, and ends with its last record (R212, R203). The oldest waiting record is sent as
its bytes: kind code, payload length, sequence, time stamp, the record, CRC (R203, R218, 10.3): a PERMIT with the code
of the node state, the mark of the free distances, the six permits each with its speed, cause code and cause argument,
and the four distances where present; a TARGET with the order id, the code of the phase, and x, y, z. A response
carries its request's sequence; any other record the output sequence, which the next one finds raised by 1, with 0
after 65,535. That a record carries the sequence as it stood before it is raised, the first one 0, and that its stamp
is taken when it is formed, is the model's choice (log entry 16), and so is that a TARGET left waiting at a RESTART is
sent (log entry 65); that a response to a frame of an unlisted kind carries the kind received is another (log entry
62). The bytes of a response's reason and content, and those of events and stream records, are free values (log entry
30). -/
def Obligations.StreamRecordsAndSending : Prop :=
  (∀ (s : State) (t : Stream) (id : Nat), s.cpt.stream = some t → waitingOut isStream s.cpt.out < 8 →
    (s.smu.slots.map (·.id)).Pairwise (· < ·) → id ∈ s.smu.slots.map (·.id) →
    (t.next ≤ id ∧ (∀ k ∈ s.smu.slots.map (·.id), t.next ≤ k → id ≤ k)
      ∨ (∀ k ∈ s.smu.slots.map (·.id), k < t.next ∧ id ≤ k)) →
      exec .slotStreamRecord s = .next { s with cpt := { s.cpt with
        out := s.cpt.out ++ [{ stamp := s.now % 4294967296, body := .stream t.seq t.k (viewSlot s id) }],
        stream := if t.n ≤ t.k then none
          else some { t with k := t.k + 1, next := if 920 ≤ id then 1 else id + 1 } } })
  ∧ (∀ s : State, 8 ≤ waitingOut isStream s.cpt.out → exec .slotStreamRecord s = .next s)
  ∧ (∀ (s : State) (r : OutRecord) (rest : List OutRecord), s.cpt.out = r :: rest →
    let bytes := Codec.encodeOut s.cpt.outSeq r
    (isResponse r.body = true → exec .outputRecordSent s = .next { s with cpt := { s.cpt with
      out := rest, sent := some { outSeq := none, record := r, bytes := bytes } } })
    ∧ (isResponse r.body = false → exec .outputRecordSent s = .next { s with cpt := { s.cpt with
      out := rest, outSeq := if s.cpt.outSeq = 65535 then 0 else (s.cpt.outSeq + 1) % 65536,
      sent := some { outSeq := some s.cpt.outSeq, record := r, bytes := bytes } } }))
  ∧ (∀ (n stamp code : Nat) (x : Response), (x.kind = .unknown code ∨ ∃ k, x.kind = .known k ∧ code = Codec.reqCode k) →
    let body := Codec.put4 stamp ++ Codec.put1 code ++ Codec.put1 (Codec.statusCode x.status)
      ++ Codec.put1 (if x.repeated then 1 else 0) ++ Codec.put2 (Config.reasonCode x.reason)
      ++ if x.content = .none then [] else Config.contentBytes x.content
    Codec.encodeOut n { stamp := stamp, body := .response x }
      = Codec.withCrc (Codec.put1 64 ++ Codec.put2 body.length ++ Codec.put2 x.seq ++ body))
  ∧ (let signed (v : Int) : List Byte := Codec.put4 (v % 4294967296).toNat
     let entry (p : Permit) : List Byte :=
       Codec.put2 p.speed.toNat ++ Codec.put1 (causeNumber p.cause).1 ++ Codec.put2 (causeNumber p.cause).2
     let frame (kind length n stamp : Nat) (more : List Byte) : List Byte :=
       Codec.withCrc (Codec.put1 kind ++ Codec.put2 length ++ Codec.put2 n ++ (Codec.put4 stamp ++ more))
     (∀ (n stamp code : Nat) (st : NodeState) (r : PermitRecord),
        (code, st) ∈ [(1, NodeState.config), (2, .joining), (3, .running), (4, .parked), (5, .resuming), (6, .fault)] →
        let entries := entry r.permits.gantryPlus ++ entry r.permits.gantryMinus ++ entry r.permits.trolleyPlus
          ++ entry r.permits.trolleyMinus ++ entry r.permits.hoistUp ++ entry r.permits.hoistDown
        (r.free = none → Codec.encodeOut n { stamp := stamp, body := .permit st r }
          = frame 65 36 n stamp (Codec.put1 code ++ Codec.put1 0 ++ entries))
        ∧ ∀ d, r.free = some d → Codec.encodeOut n { stamp := stamp, body := .permit st r }
          = frame 65 52 n stamp (Codec.put1 code ++ Codec.put1 1 ++ entries ++ signed d.gantryPlus ++ signed d.gantryMinus
              ++ signed d.trolleyPlus ++ signed d.trolleyMinus))
     ∧ (∀ (n stamp code order : Nat) (p : TargetPhase) (x y z : Int),
        (code, p) ∈ [(1, TargetPhase.phase .claimSource), (2, .phase .toSource), (3, .phase .pickLower), (4, .phase .lift),
          (5, .phase .decide), (6, .phase .holdLoad), (7, .phase .claimDest), (8, .phase .toDest),
          (9, .phase .placeLower), (10, .phase .opening), (11, .phase .clear), (12, .done), (13, .failed),
          (14, .cancelled)] →
        Codec.encodeOut n { stamp := stamp, body := .target order p x y z }
          = frame 66 19 n stamp (Codec.put2 order ++ Codec.put1 code ++ signed x ++ signed y ++ signed z))
     ∧ (∀ (n stamp : Nat) (e : Event), ∃ more, Codec.encodeOut n { stamp := stamp, body := .event e }
          = frame 67 (4 + more.length) n stamp more)
     ∧ ∀ (n stamp seq k : Nat) (v : SlotView), ∃ more, Codec.encodeOut n { stamp := stamp, body := .stream seq k v }
          = frame 68 (4 + more.length) n stamp more)

end
end

