-- ==== Sys2Proof/Laws/State.lean ====
section
/-! SUPPORT. What the plain updates of the state leave unchanged, and what they set: one lemma for each field, true by
rfl, so that no later proof unfolds a record update. -/

namespace Sys2Proof.Machine

@[simp] theorem reach_serial (s : State) (t : Nat) : (s.reach t).serial = s.serial := rfl
@[simp] theorem reach_draws (s : State) (t : Nat) : (s.reach t).draws = s.draws := rfl
@[simp] theorem reach_rlc (s : State) (t : Nat) : (s.reach t).rlc = s.rlc := rfl
@[simp] theorem reach_ptb (s : State) (t : Nat) : (s.reach t).ptb = s.ptb := rfl
@[simp] theorem reach_epu (s : State) (t : Nat) : (s.reach t).epu = s.epu := rfl
@[simp] theorem reach_clu (s : State) (t : Nat) : (s.reach t).clu = s.clu := rfl
@[simp] theorem reach_smu (s : State) (t : Nat) : (s.reach t).smu = s.smu := rfl
@[simp] theorem reach_wgu (s : State) (t : Nat) : (s.reach t).wgu = s.wgu := rfl
@[simp] theorem reach_lcp (s : State) (t : Nat) : (s.reach t).lcp = s.lcp := rfl
@[simp] theorem reach_tbu (s : State) (t : Nat) : (s.reach t).tbu = s.tbu := rfl
@[simp] theorem reach_moc (s : State) (t : Nat) : (s.reach t).moc = s.moc := rfl
@[simp] theorem reach_cpt (s : State) (t : Nat) : (s.reach t).cpt = s.cpt := rfl
@[simp] theorem reach_work (s : State) (t : Nat) : (s.reach t).work = s.work := rfl
@[simp] theorem reach_pending (s : State) (t : Nat) : (s.reach t).pending = s.pending := rfl

@[simp] theorem drew_serial (s : State) : (s.drew).serial = s.serial := rfl
@[simp] theorem drew_now (s : State) : (s.drew).now = s.now := rfl
@[simp] theorem drew_rlc (s : State) : (s.drew).rlc = s.rlc := rfl
@[simp] theorem drew_ptb (s : State) : (s.drew).ptb = s.ptb := rfl
@[simp] theorem drew_epu (s : State) : (s.drew).epu = s.epu := rfl
@[simp] theorem drew_clu (s : State) : (s.drew).clu = s.clu := rfl
@[simp] theorem drew_smu (s : State) : (s.drew).smu = s.smu := rfl
@[simp] theorem drew_wgu (s : State) : (s.drew).wgu = s.wgu := rfl
@[simp] theorem drew_lcp (s : State) : (s.drew).lcp = s.lcp := rfl
@[simp] theorem drew_tbu (s : State) : (s.drew).tbu = s.tbu := rfl
@[simp] theorem drew_moc (s : State) : (s.drew).moc = s.moc := rfl
@[simp] theorem drew_cpt (s : State) : (s.drew).cpt = s.cpt := rfl
@[simp] theorem drew_work (s : State) : (s.drew).work = s.work := rfl
@[simp] theorem drew_pending (s : State) : (s.drew).pending = s.pending := rfl

@[simp] theorem hand_serial (s : State) (w : Work) : (s.hand w).serial = s.serial := rfl
@[simp] theorem hand_now (s : State) (w : Work) : (s.hand w).now = s.now := rfl
@[simp] theorem hand_draws (s : State) (w : Work) : (s.hand w).draws = s.draws := rfl
@[simp] theorem hand_rlc (s : State) (w : Work) : (s.hand w).rlc = s.rlc := rfl
@[simp] theorem hand_ptb (s : State) (w : Work) : (s.hand w).ptb = s.ptb := rfl
@[simp] theorem hand_epu (s : State) (w : Work) : (s.hand w).epu = s.epu := rfl
@[simp] theorem hand_clu (s : State) (w : Work) : (s.hand w).clu = s.clu := rfl
@[simp] theorem hand_smu (s : State) (w : Work) : (s.hand w).smu = s.smu := rfl
@[simp] theorem hand_wgu (s : State) (w : Work) : (s.hand w).wgu = s.wgu := rfl
@[simp] theorem hand_lcp (s : State) (w : Work) : (s.hand w).lcp = s.lcp := rfl
@[simp] theorem hand_tbu (s : State) (w : Work) : (s.hand w).tbu = s.tbu := rfl
@[simp] theorem hand_moc (s : State) (w : Work) : (s.hand w).moc = s.moc := rfl
@[simp] theorem hand_cpt (s : State) (w : Work) : (s.hand w).cpt = s.cpt := rfl
@[simp] theorem hand_pending (s : State) (w : Work) : (s.hand w).pending = s.pending := rfl

@[simp] theorem emit_serial (s : State) (e : Event) : (s.emit e).serial = s.serial := rfl
@[simp] theorem emit_now (s : State) (e : Event) : (s.emit e).now = s.now := rfl
@[simp] theorem emit_draws (s : State) (e : Event) : (s.emit e).draws = s.draws := rfl
@[simp] theorem emit_rlc (s : State) (e : Event) : (s.emit e).rlc = s.rlc := rfl
@[simp] theorem emit_ptb (s : State) (e : Event) : (s.emit e).ptb = s.ptb := rfl
@[simp] theorem emit_epu (s : State) (e : Event) : (s.emit e).epu = s.epu := rfl
@[simp] theorem emit_clu (s : State) (e : Event) : (s.emit e).clu = s.clu := rfl
@[simp] theorem emit_smu (s : State) (e : Event) : (s.emit e).smu = s.smu := rfl
@[simp] theorem emit_wgu (s : State) (e : Event) : (s.emit e).wgu = s.wgu := rfl
@[simp] theorem emit_lcp (s : State) (e : Event) : (s.emit e).lcp = s.lcp := rfl
@[simp] theorem emit_tbu (s : State) (e : Event) : (s.emit e).tbu = s.tbu := rfl
@[simp] theorem emit_moc (s : State) (e : Event) : (s.emit e).moc = s.moc := rfl
@[simp] theorem emit_work (s : State) (e : Event) : (s.emit e).work = s.work := rfl
@[simp] theorem emit_pending (s : State) (e : Event) : (s.emit e).pending = s.pending := rfl

@[simp] theorem emitPermit_serial (s : State) : (s.emitPermit).serial = s.serial := rfl
@[simp] theorem emitPermit_now (s : State) : (s.emitPermit).now = s.now := rfl
@[simp] theorem emitPermit_draws (s : State) : (s.emitPermit).draws = s.draws := rfl
@[simp] theorem emitPermit_rlc (s : State) : (s.emitPermit).rlc = s.rlc := rfl
@[simp] theorem emitPermit_ptb (s : State) : (s.emitPermit).ptb = s.ptb := rfl
@[simp] theorem emitPermit_epu (s : State) : (s.emitPermit).epu = s.epu := rfl
@[simp] theorem emitPermit_clu (s : State) : (s.emitPermit).clu = s.clu := rfl
@[simp] theorem emitPermit_smu (s : State) : (s.emitPermit).smu = s.smu := rfl
@[simp] theorem emitPermit_wgu (s : State) : (s.emitPermit).wgu = s.wgu := rfl
@[simp] theorem emitPermit_lcp (s : State) : (s.emitPermit).lcp = s.lcp := rfl
@[simp] theorem emitPermit_tbu (s : State) : (s.emitPermit).tbu = s.tbu := rfl
@[simp] theorem emitPermit_moc (s : State) : (s.emitPermit).moc = s.moc := rfl
@[simp] theorem emitPermit_work (s : State) : (s.emitPermit).work = s.work := rfl
@[simp] theorem emitPermit_pending (s : State) : (s.emitPermit).pending = s.pending := rfl

@[simp] theorem emitTarget_serial (s : State) (o : Nat) (p : TargetPhase) (x y z : Int) : (s.emitTarget o p x y z).serial = s.serial := rfl
@[simp] theorem emitTarget_now (s : State) (o : Nat) (p : TargetPhase) (x y z : Int) : (s.emitTarget o p x y z).now = s.now := rfl
@[simp] theorem emitTarget_draws (s : State) (o : Nat) (p : TargetPhase) (x y z : Int) : (s.emitTarget o p x y z).draws = s.draws := rfl
@[simp] theorem emitTarget_rlc (s : State) (o : Nat) (p : TargetPhase) (x y z : Int) : (s.emitTarget o p x y z).rlc = s.rlc := rfl
@[simp] theorem emitTarget_ptb (s : State) (o : Nat) (p : TargetPhase) (x y z : Int) : (s.emitTarget o p x y z).ptb = s.ptb := rfl
@[simp] theorem emitTarget_epu (s : State) (o : Nat) (p : TargetPhase) (x y z : Int) : (s.emitTarget o p x y z).epu = s.epu := rfl
@[simp] theorem emitTarget_clu (s : State) (o : Nat) (p : TargetPhase) (x y z : Int) : (s.emitTarget o p x y z).clu = s.clu := rfl
@[simp] theorem emitTarget_smu (s : State) (o : Nat) (p : TargetPhase) (x y z : Int) : (s.emitTarget o p x y z).smu = s.smu := rfl
@[simp] theorem emitTarget_wgu (s : State) (o : Nat) (p : TargetPhase) (x y z : Int) : (s.emitTarget o p x y z).wgu = s.wgu := rfl
@[simp] theorem emitTarget_lcp (s : State) (o : Nat) (p : TargetPhase) (x y z : Int) : (s.emitTarget o p x y z).lcp = s.lcp := rfl
@[simp] theorem emitTarget_tbu (s : State) (o : Nat) (p : TargetPhase) (x y z : Int) : (s.emitTarget o p x y z).tbu = s.tbu := rfl
@[simp] theorem emitTarget_moc (s : State) (o : Nat) (p : TargetPhase) (x y z : Int) : (s.emitTarget o p x y z).moc = s.moc := rfl
@[simp] theorem emitTarget_work (s : State) (o : Nat) (p : TargetPhase) (x y z : Int) : (s.emitTarget o p x y z).work = s.work := rfl
@[simp] theorem emitTarget_pending (s : State) (o : Nat) (p : TargetPhase) (x y z : Int) : (s.emitTarget o p x y z).pending = s.pending := rfl

@[simp] theorem queueResponse_serial (s : State) (r : Response) : (s.queueResponse r).serial = s.serial := rfl
@[simp] theorem queueResponse_now (s : State) (r : Response) : (s.queueResponse r).now = s.now := rfl
@[simp] theorem queueResponse_draws (s : State) (r : Response) : (s.queueResponse r).draws = s.draws := rfl
@[simp] theorem queueResponse_rlc (s : State) (r : Response) : (s.queueResponse r).rlc = s.rlc := rfl
@[simp] theorem queueResponse_ptb (s : State) (r : Response) : (s.queueResponse r).ptb = s.ptb := rfl
@[simp] theorem queueResponse_epu (s : State) (r : Response) : (s.queueResponse r).epu = s.epu := rfl
@[simp] theorem queueResponse_clu (s : State) (r : Response) : (s.queueResponse r).clu = s.clu := rfl
@[simp] theorem queueResponse_smu (s : State) (r : Response) : (s.queueResponse r).smu = s.smu := rfl
@[simp] theorem queueResponse_wgu (s : State) (r : Response) : (s.queueResponse r).wgu = s.wgu := rfl
@[simp] theorem queueResponse_lcp (s : State) (r : Response) : (s.queueResponse r).lcp = s.lcp := rfl
@[simp] theorem queueResponse_tbu (s : State) (r : Response) : (s.queueResponse r).tbu = s.tbu := rfl
@[simp] theorem queueResponse_moc (s : State) (r : Response) : (s.queueResponse r).moc = s.moc := rfl
@[simp] theorem queueResponse_work (s : State) (r : Response) : (s.queueResponse r).work = s.work := rfl
@[simp] theorem queueResponse_pending (s : State) (r : Response) : (s.queueResponse r).pending = s.pending := rfl

@[simp] theorem clearQueue_serial (s : State) : (s.clearQueue).serial = s.serial := rfl
@[simp] theorem clearQueue_now (s : State) : (s.clearQueue).now = s.now := rfl
@[simp] theorem clearQueue_draws (s : State) : (s.clearQueue).draws = s.draws := rfl
@[simp] theorem clearQueue_ptb (s : State) : (s.clearQueue).ptb = s.ptb := rfl
@[simp] theorem clearQueue_epu (s : State) : (s.clearQueue).epu = s.epu := rfl
@[simp] theorem clearQueue_clu (s : State) : (s.clearQueue).clu = s.clu := rfl
@[simp] theorem clearQueue_smu (s : State) : (s.clearQueue).smu = s.smu := rfl
@[simp] theorem clearQueue_wgu (s : State) : (s.clearQueue).wgu = s.wgu := rfl
@[simp] theorem clearQueue_lcp (s : State) : (s.clearQueue).lcp = s.lcp := rfl
@[simp] theorem clearQueue_tbu (s : State) : (s.clearQueue).tbu = s.tbu := rfl
@[simp] theorem clearQueue_moc (s : State) : (s.clearQueue).moc = s.moc := rfl
@[simp] theorem clearQueue_cpt (s : State) : (s.clearQueue).cpt = s.cpt := rfl
@[simp] theorem clearQueue_work (s : State) : (s.clearQueue).work = s.work := rfl
@[simp] theorem clearQueue_pending (s : State) : (s.clearQueue).pending = s.pending := rfl

@[simp] theorem tick_serial (s : State) : (s.tick).serial = s.serial := rfl
@[simp] theorem tick_draws (s : State) : (s.tick).draws = s.draws := rfl
@[simp] theorem tick_rlc (s : State) : (s.tick).rlc = s.rlc := rfl
@[simp] theorem tick_ptb (s : State) : (s.tick).ptb = s.ptb := rfl
@[simp] theorem tick_epu (s : State) : (s.tick).epu = s.epu := rfl
@[simp] theorem tick_clu (s : State) : (s.tick).clu = s.clu := rfl
@[simp] theorem tick_smu (s : State) : (s.tick).smu = s.smu := rfl
@[simp] theorem tick_wgu (s : State) : (s.tick).wgu = s.wgu := rfl
@[simp] theorem tick_lcp (s : State) : (s.tick).lcp = s.lcp := rfl
@[simp] theorem tick_tbu (s : State) : (s.tick).tbu = s.tbu := rfl
@[simp] theorem tick_moc (s : State) : (s.tick).moc = s.moc := rfl
@[simp] theorem tick_cpt (s : State) : (s.tick).cpt = s.cpt := rfl
@[simp] theorem tick_work (s : State) : (s.tick).work = s.work := rfl
@[simp] theorem tick_pending (s : State) : (s.tick).pending = s.pending := rfl

@[simp] theorem setActive_serial (s : State) (f : Active → Active) : (setActive s f).serial = s.serial := rfl
@[simp] theorem setActive_now (s : State) (f : Active → Active) : (setActive s f).now = s.now := rfl
@[simp] theorem setActive_draws (s : State) (f : Active → Active) : (setActive s f).draws = s.draws := rfl
@[simp] theorem setActive_rlc (s : State) (f : Active → Active) : (setActive s f).rlc = s.rlc := rfl
@[simp] theorem setActive_ptb (s : State) (f : Active → Active) : (setActive s f).ptb = s.ptb := rfl
@[simp] theorem setActive_epu (s : State) (f : Active → Active) : (setActive s f).epu = s.epu := rfl
@[simp] theorem setActive_clu (s : State) (f : Active → Active) : (setActive s f).clu = s.clu := rfl
@[simp] theorem setActive_smu (s : State) (f : Active → Active) : (setActive s f).smu = s.smu := rfl
@[simp] theorem setActive_wgu (s : State) (f : Active → Active) : (setActive s f).wgu = s.wgu := rfl
@[simp] theorem setActive_lcp (s : State) (f : Active → Active) : (setActive s f).lcp = s.lcp := rfl
@[simp] theorem setActive_tbu (s : State) (f : Active → Active) : (setActive s f).tbu = s.tbu := rfl
@[simp] theorem setActive_cpt (s : State) (f : Active → Active) : (setActive s f).cpt = s.cpt := rfl
@[simp] theorem setActive_work (s : State) (f : Active → Active) : (setActive s f).work = s.work := rfl
@[simp] theorem setActive_pending (s : State) (f : Active → Active) : (setActive s f).pending = s.pending := rfl

@[simp] theorem putClaim_serial (s : State) (t : Target) (f : OwnClaim → OwnClaim) : (putClaim s t f).serial = s.serial := rfl
@[simp] theorem putClaim_now (s : State) (t : Target) (f : OwnClaim → OwnClaim) : (putClaim s t f).now = s.now := rfl
@[simp] theorem putClaim_draws (s : State) (t : Target) (f : OwnClaim → OwnClaim) : (putClaim s t f).draws = s.draws := rfl
@[simp] theorem putClaim_rlc (s : State) (t : Target) (f : OwnClaim → OwnClaim) : (putClaim s t f).rlc = s.rlc := rfl
@[simp] theorem putClaim_ptb (s : State) (t : Target) (f : OwnClaim → OwnClaim) : (putClaim s t f).ptb = s.ptb := rfl
@[simp] theorem putClaim_epu (s : State) (t : Target) (f : OwnClaim → OwnClaim) : (putClaim s t f).epu = s.epu := rfl
@[simp] theorem putClaim_smu (s : State) (t : Target) (f : OwnClaim → OwnClaim) : (putClaim s t f).smu = s.smu := rfl
@[simp] theorem putClaim_wgu (s : State) (t : Target) (f : OwnClaim → OwnClaim) : (putClaim s t f).wgu = s.wgu := rfl
@[simp] theorem putClaim_lcp (s : State) (t : Target) (f : OwnClaim → OwnClaim) : (putClaim s t f).lcp = s.lcp := rfl
@[simp] theorem putClaim_tbu (s : State) (t : Target) (f : OwnClaim → OwnClaim) : (putClaim s t f).tbu = s.tbu := rfl
@[simp] theorem putClaim_moc (s : State) (t : Target) (f : OwnClaim → OwnClaim) : (putClaim s t f).moc = s.moc := rfl
@[simp] theorem putClaim_cpt (s : State) (t : Target) (f : OwnClaim → OwnClaim) : (putClaim s t f).cpt = s.cpt := rfl
@[simp] theorem putClaim_work (s : State) (t : Target) (f : OwnClaim → OwnClaim) : (putClaim s t f).work = s.work := rfl
@[simp] theorem putClaim_pending (s : State) (t : Target) (f : OwnClaim → OwnClaim) : (putClaim s t f).pending = s.pending := rfl

@[simp] theorem putTrack_serial (s : State) (t : Track) : (putTrack s t).serial = s.serial := rfl
@[simp] theorem putTrack_now (s : State) (t : Track) : (putTrack s t).now = s.now := rfl
@[simp] theorem putTrack_draws (s : State) (t : Track) : (putTrack s t).draws = s.draws := rfl
@[simp] theorem putTrack_rlc (s : State) (t : Track) : (putTrack s t).rlc = s.rlc := rfl
@[simp] theorem putTrack_ptb (s : State) (t : Track) : (putTrack s t).ptb = s.ptb := rfl
@[simp] theorem putTrack_epu (s : State) (t : Track) : (putTrack s t).epu = s.epu := rfl
@[simp] theorem putTrack_clu (s : State) (t : Track) : (putTrack s t).clu = s.clu := rfl
@[simp] theorem putTrack_wgu (s : State) (t : Track) : (putTrack s t).wgu = s.wgu := rfl
@[simp] theorem putTrack_lcp (s : State) (t : Track) : (putTrack s t).lcp = s.lcp := rfl
@[simp] theorem putTrack_tbu (s : State) (t : Track) : (putTrack s t).tbu = s.tbu := rfl
@[simp] theorem putTrack_moc (s : State) (t : Track) : (putTrack s t).moc = s.moc := rfl
@[simp] theorem putTrack_cpt (s : State) (t : Track) : (putTrack s t).cpt = s.cpt := rfl
@[simp] theorem putTrack_work (s : State) (t : Track) : (putTrack s t).work = s.work := rfl
@[simp] theorem putTrack_pending (s : State) (t : Track) : (putTrack s t).pending = s.pending := rfl

@[simp] theorem putPeer_serial (s : State) (p : Peer) : (putPeer s p).serial = s.serial := rfl
@[simp] theorem putPeer_now (s : State) (p : Peer) : (putPeer s p).now = s.now := rfl
@[simp] theorem putPeer_draws (s : State) (p : Peer) : (putPeer s p).draws = s.draws := rfl
@[simp] theorem putPeer_rlc (s : State) (p : Peer) : (putPeer s p).rlc = s.rlc := rfl
@[simp] theorem putPeer_epu (s : State) (p : Peer) : (putPeer s p).epu = s.epu := rfl
@[simp] theorem putPeer_clu (s : State) (p : Peer) : (putPeer s p).clu = s.clu := rfl
@[simp] theorem putPeer_smu (s : State) (p : Peer) : (putPeer s p).smu = s.smu := rfl
@[simp] theorem putPeer_wgu (s : State) (p : Peer) : (putPeer s p).wgu = s.wgu := rfl
@[simp] theorem putPeer_lcp (s : State) (p : Peer) : (putPeer s p).lcp = s.lcp := rfl
@[simp] theorem putPeer_tbu (s : State) (p : Peer) : (putPeer s p).tbu = s.tbu := rfl
@[simp] theorem putPeer_moc (s : State) (p : Peer) : (putPeer s p).moc = s.moc := rfl
@[simp] theorem putPeer_cpt (s : State) (p : Peer) : (putPeer s p).cpt = s.cpt := rfl
@[simp] theorem putPeer_work (s : State) (p : Peer) : (putPeer s p).work = s.work := rfl
@[simp] theorem putPeer_pending (s : State) (p : Peer) : (putPeer s p).pending = s.pending := rfl

@[simp] theorem dropRequest_serial (s : State) : (dropRequest s).serial = s.serial := rfl
@[simp] theorem dropRequest_now (s : State) : (dropRequest s).now = s.now := rfl
@[simp] theorem dropRequest_draws (s : State) : (dropRequest s).draws = s.draws := rfl
@[simp] theorem dropRequest_rlc (s : State) : (dropRequest s).rlc = s.rlc := rfl
@[simp] theorem dropRequest_ptb (s : State) : (dropRequest s).ptb = s.ptb := rfl
@[simp] theorem dropRequest_epu (s : State) : (dropRequest s).epu = s.epu := rfl
@[simp] theorem dropRequest_clu (s : State) : (dropRequest s).clu = s.clu := rfl
@[simp] theorem dropRequest_smu (s : State) : (dropRequest s).smu = s.smu := rfl
@[simp] theorem dropRequest_wgu (s : State) : (dropRequest s).wgu = s.wgu := rfl
@[simp] theorem dropRequest_lcp (s : State) : (dropRequest s).lcp = s.lcp := rfl
@[simp] theorem dropRequest_tbu (s : State) : (dropRequest s).tbu = s.tbu := rfl
@[simp] theorem dropRequest_moc (s : State) : (dropRequest s).moc = s.moc := rfl
@[simp] theorem dropRequest_work (s : State) : (dropRequest s).work = s.work := rfl
@[simp] theorem dropRequest_pending (s : State) : (dropRequest s).pending = s.pending := rfl

@[simp] theorem openReleaseWindow_serial (s : State) (bay : Nat) : (s.openReleaseWindow bay).serial = s.serial := rfl
@[simp] theorem openReleaseWindow_now (s : State) (bay : Nat) : (s.openReleaseWindow bay).now = s.now := rfl
@[simp] theorem openReleaseWindow_draws (s : State) (bay : Nat) : (s.openReleaseWindow bay).draws = s.draws := rfl
@[simp] theorem openReleaseWindow_ptb (s : State) (bay : Nat) : (s.openReleaseWindow bay).ptb = s.ptb := rfl
@[simp] theorem openReleaseWindow_epu (s : State) (bay : Nat) : (s.openReleaseWindow bay).epu = s.epu := rfl
@[simp] theorem openReleaseWindow_clu (s : State) (bay : Nat) : (s.openReleaseWindow bay).clu = s.clu := rfl
@[simp] theorem openReleaseWindow_smu (s : State) (bay : Nat) : (s.openReleaseWindow bay).smu = s.smu := rfl
@[simp] theorem openReleaseWindow_wgu (s : State) (bay : Nat) : (s.openReleaseWindow bay).wgu = s.wgu := rfl
@[simp] theorem openReleaseWindow_lcp (s : State) (bay : Nat) : (s.openReleaseWindow bay).lcp = s.lcp := rfl
@[simp] theorem openReleaseWindow_tbu (s : State) (bay : Nat) : (s.openReleaseWindow bay).tbu = s.tbu := rfl
@[simp] theorem openReleaseWindow_moc (s : State) (bay : Nat) : (s.openReleaseWindow bay).moc = s.moc := rfl
@[simp] theorem openReleaseWindow_cpt (s : State) (bay : Nat) : (s.openReleaseWindow bay).cpt = s.cpt := rfl
@[simp] theorem openReleaseWindow_work (s : State) (bay : Nat) : (s.openReleaseWindow bay).work = s.work := rfl
@[simp] theorem openReleaseWindow_pending (s : State) (bay : Nat) : (s.openReleaseWindow bay).pending = s.pending := rfl

@[simp] theorem dropTruckReq_serial (s : State) (bay : Nat) : (dropTruckReq s bay).serial = s.serial := rfl
@[simp] theorem dropTruckReq_now (s : State) (bay : Nat) : (dropTruckReq s bay).now = s.now := rfl
@[simp] theorem dropTruckReq_draws (s : State) (bay : Nat) : (dropTruckReq s bay).draws = s.draws := rfl
@[simp] theorem dropTruckReq_rlc (s : State) (bay : Nat) : (dropTruckReq s bay).rlc = s.rlc := rfl
@[simp] theorem dropTruckReq_ptb (s : State) (bay : Nat) : (dropTruckReq s bay).ptb = s.ptb := rfl
@[simp] theorem dropTruckReq_epu (s : State) (bay : Nat) : (dropTruckReq s bay).epu = s.epu := rfl
@[simp] theorem dropTruckReq_clu (s : State) (bay : Nat) : (dropTruckReq s bay).clu = s.clu := rfl
@[simp] theorem dropTruckReq_smu (s : State) (bay : Nat) : (dropTruckReq s bay).smu = s.smu := rfl
@[simp] theorem dropTruckReq_wgu (s : State) (bay : Nat) : (dropTruckReq s bay).wgu = s.wgu := rfl
@[simp] theorem dropTruckReq_lcp (s : State) (bay : Nat) : (dropTruckReq s bay).lcp = s.lcp := rfl
@[simp] theorem dropTruckReq_moc (s : State) (bay : Nat) : (dropTruckReq s bay).moc = s.moc := rfl
@[simp] theorem dropTruckReq_cpt (s : State) (bay : Nat) : (dropTruckReq s bay).cpt = s.cpt := rfl
@[simp] theorem dropTruckReq_work (s : State) (bay : Nat) : (dropTruckReq s bay).work = s.work := rfl
@[simp] theorem dropTruckReq_pending (s : State) (bay : Nat) : (dropTruckReq s bay).pending = s.pending := rfl

@[simp] theorem keepEnded_serial (s : State) (e : Ended) : (keepEnded s e).serial = s.serial := rfl
@[simp] theorem keepEnded_now (s : State) (e : Ended) : (keepEnded s e).now = s.now := rfl
@[simp] theorem keepEnded_draws (s : State) (e : Ended) : (keepEnded s e).draws = s.draws := rfl
@[simp] theorem keepEnded_rlc (s : State) (e : Ended) : (keepEnded s e).rlc = s.rlc := rfl
@[simp] theorem keepEnded_ptb (s : State) (e : Ended) : (keepEnded s e).ptb = s.ptb := rfl
@[simp] theorem keepEnded_epu (s : State) (e : Ended) : (keepEnded s e).epu = s.epu := rfl
@[simp] theorem keepEnded_clu (s : State) (e : Ended) : (keepEnded s e).clu = s.clu := rfl
@[simp] theorem keepEnded_smu (s : State) (e : Ended) : (keepEnded s e).smu = s.smu := rfl
@[simp] theorem keepEnded_wgu (s : State) (e : Ended) : (keepEnded s e).wgu = s.wgu := rfl
@[simp] theorem keepEnded_lcp (s : State) (e : Ended) : (keepEnded s e).lcp = s.lcp := rfl
@[simp] theorem keepEnded_tbu (s : State) (e : Ended) : (keepEnded s e).tbu = s.tbu := rfl
@[simp] theorem keepEnded_cpt (s : State) (e : Ended) : (keepEnded s e).cpt = s.cpt := rfl
@[simp] theorem keepEnded_work (s : State) (e : Ended) : (keepEnded s e).work = s.work := rfl
@[simp] theorem keepEnded_pending (s : State) (e : Ended) : (keepEnded s e).pending = s.pending := rfl

@[simp] theorem keepRaw_serial (s : State) (raw : Int) (b : Bool) : (keepRaw s raw b).serial = s.serial := rfl
@[simp] theorem keepRaw_now (s : State) (raw : Int) (b : Bool) : (keepRaw s raw b).now = s.now := rfl
@[simp] theorem keepRaw_draws (s : State) (raw : Int) (b : Bool) : (keepRaw s raw b).draws = s.draws := rfl
@[simp] theorem keepRaw_rlc (s : State) (raw : Int) (b : Bool) : (keepRaw s raw b).rlc = s.rlc := rfl
@[simp] theorem keepRaw_ptb (s : State) (raw : Int) (b : Bool) : (keepRaw s raw b).ptb = s.ptb := rfl
@[simp] theorem keepRaw_epu (s : State) (raw : Int) (b : Bool) : (keepRaw s raw b).epu = s.epu := rfl
@[simp] theorem keepRaw_clu (s : State) (raw : Int) (b : Bool) : (keepRaw s raw b).clu = s.clu := rfl
@[simp] theorem keepRaw_smu (s : State) (raw : Int) (b : Bool) : (keepRaw s raw b).smu = s.smu := rfl
@[simp] theorem keepRaw_wgu (s : State) (raw : Int) (b : Bool) : (keepRaw s raw b).wgu = s.wgu := rfl
@[simp] theorem keepRaw_tbu (s : State) (raw : Int) (b : Bool) : (keepRaw s raw b).tbu = s.tbu := rfl
@[simp] theorem keepRaw_moc (s : State) (raw : Int) (b : Bool) : (keepRaw s raw b).moc = s.moc := rfl
@[simp] theorem keepRaw_cpt (s : State) (raw : Int) (b : Bool) : (keepRaw s raw b).cpt = s.cpt := rfl
@[simp] theorem keepRaw_work (s : State) (raw : Int) (b : Bool) : (keepRaw s raw b).work = s.work := rfl
@[simp] theorem keepRaw_pending (s : State) (raw : Int) (b : Bool) : (keepRaw s raw b).pending = s.pending := rfl

@[simp] theorem takeZero_serial (s : State) (z : Int) : (takeZero s z).serial = s.serial := rfl
@[simp] theorem takeZero_now (s : State) (z : Int) : (takeZero s z).now = s.now := rfl
@[simp] theorem takeZero_draws (s : State) (z : Int) : (takeZero s z).draws = s.draws := rfl
@[simp] theorem takeZero_rlc (s : State) (z : Int) : (takeZero s z).rlc = s.rlc := rfl
@[simp] theorem takeZero_ptb (s : State) (z : Int) : (takeZero s z).ptb = s.ptb := rfl
@[simp] theorem takeZero_epu (s : State) (z : Int) : (takeZero s z).epu = s.epu := rfl
@[simp] theorem takeZero_clu (s : State) (z : Int) : (takeZero s z).clu = s.clu := rfl
@[simp] theorem takeZero_smu (s : State) (z : Int) : (takeZero s z).smu = s.smu := rfl
@[simp] theorem takeZero_lcp (s : State) (z : Int) : (takeZero s z).lcp = s.lcp := rfl
@[simp] theorem takeZero_tbu (s : State) (z : Int) : (takeZero s z).tbu = s.tbu := rfl
@[simp] theorem takeZero_moc (s : State) (z : Int) : (takeZero s z).moc = s.moc := rfl
@[simp] theorem takeZero_cpt (s : State) (z : Int) : (takeZero s z).cpt = s.cpt := rfl
@[simp] theorem takeZero_work (s : State) (z : Int) : (takeZero s z).work = s.work := rfl
@[simp] theorem takeZero_pending (s : State) (z : Int) : (takeZero s z).pending = s.pending := rfl

@[simp] theorem reach_now (s : State) (t : Nat) : (s.reach t).now = max s.now t := rfl
@[simp] theorem tick_now (s : State) : s.tick.now = s.now + 1 := rfl
@[simp] theorem drew_draws (s : State) : s.drew.draws = s.draws + 1 := rfl
@[simp] theorem hand_work (s : State) (w : Work) : (s.hand w).work = s.work ++ [w] := rfl
@[simp] theorem emit_cpt (s : State) (e : Event) : (s.emit e).cpt = offerEvent s.cpt s.stamp e := rfl
@[simp] theorem emitPermit_cpt (s : State) :
    s.emitPermit.cpt = placeOut isPermit s.cpt s.stamp (.permit s.rlc.nodeState s.epu.record) := rfl
@[simp] theorem emitTarget_cpt (s : State) (o : Nat) (p : TargetPhase) (x y z : Int) :
    (s.emitTarget o p x y z).cpt = placeOut isTarget s.cpt s.stamp (.target o p x y z) := rfl
@[simp] theorem queueResponse_cpt (s : State) (r : Response) :
    (s.queueResponse r).cpt = pushOut s.cpt s.stamp (.response r) := rfl
@[simp] theorem dropRequest_cpt (s : State) :
    (dropRequest s).cpt = { s.cpt with reqBuf := s.cpt.reqBuf.drop 1 } := rfl
@[simp] theorem setActive_moc (s : State) (f : Active → Active) :
    (setActive s f).moc = { s.moc with active := s.moc.active.map f } := rfl
@[simp] theorem putClaim_clu (s : State) (t : Target) (f : OwnClaim → OwnClaim) :
    (putClaim s t f).clu = { s.clu with claims := s.clu.claims.map fun c => if c.target == t then f c else c } := rfl
@[simp] theorem putPeer_ptb (s : State) (p : Peer) :
    (putPeer s p).ptb = { s.ptb with peers := insertPeer p s.ptb.peers } := rfl
@[simp] theorem putTrack_smu (s : State) (t : Track) :
    (putTrack s t).smu = { s.smu with tracking := (s.smu.tracking.filter fun u => u.n != t.n) ++ [t] } := rfl
@[simp] theorem dropTruckReq_tbu (s : State) (bay : Nat) :
    (dropTruckReq s bay).tbu = { s.tbu with requests := s.tbu.requests.set bay none } := rfl
@[simp] theorem keepEnded_moc (s : State) (e : Ended) :
    (keepEnded s e).moc = { s.moc with ended := (e :: s.moc.ended).take 4 } := rfl

/-! ## One value for each bay -/

/-- What a bay reads after another's, or its own, value is replaced: every number beyond 3 is bay 4. -/
theorem perBay_get_set {α : Type} (q : PerBay α) (b c : Nat) (v : α) :
    (q.set b v).get c = v ∧ (b = c ∨ q.get b = q.get c) ∨ (q.set b v).get c = q.get c ∧ b ≠ c := by
  match b, c with
  | 0, 0 | 0, 1 | 0, 2 | 0, 3 | 0, _ + 4 => simp [PerBay.set, PerBay.get]
  | 1, 0 | 1, 1 | 1, 2 | 1, 3 | 1, _ + 4 => simp [PerBay.set, PerBay.get]
  | 2, 0 | 2, 1 | 2, 2 | 2, 3 | 2, _ + 4 => simp [PerBay.set, PerBay.get]
  | 3, 0 | 3, 1 | 3, 2 | 3, 3 | 3, _ + 4 => simp [PerBay.set, PerBay.get]
  | _ + 4, 0 | _ + 4, 1 | _ + 4, 2 | _ + 4, 3 | _ + 4, _ + 4 => simp [PerBay.set, PerBay.get]

/-- Where two bays hold different values of one kind, a write of the one leaves the other's value of any kind. -/
theorem perBay_get_set_ne {α β : Type} {q : PerBay α} (p : PerBay β) {b c : Nat} (v : β) (h : q.get b ≠ q.get c) :
    (p.set b v).get c = p.get c := by
  match b, c with
  | 0, 0 | 0, 1 | 0, 2 | 0, 3 | 0, _ + 4 => simp_all [PerBay.set, PerBay.get]
  | 1, 0 | 1, 1 | 1, 2 | 1, 3 | 1, _ + 4 => simp_all [PerBay.set, PerBay.get]
  | 2, 0 | 2, 1 | 2, 2 | 2, 3 | 2, _ + 4 => simp_all [PerBay.set, PerBay.get]
  | 3, 0 | 3, 1 | 3, 2 | 3, 3 | 3, _ + 4 => simp_all [PerBay.set, PerBay.get]
  | _ + 4, 0 | _ + 4, 1 | _ + 4, 2 | _ + 4, 3 | _ + 4, _ + 4 => simp_all [PerBay.set, PerBay.get]

end Sys2Proof.Machine
end

