-- ==== Sys2Proof/Laws/Sums.lean ====
section
/-! SUPPORT. The sums law of truck records under the trailer commits (R152, R169, R170): adding a coil to a feasible
position and taking one off keep it. -/

namespace Sys2Proof.Machine

/-- The sum of a list of numbers in which one entry is replaced. -/
theorem sum_set {α : Type} (f : α → Nat) (q : α) : ∀ (l : List α) (i : Nat) (p : α), l[i]? = some p →
    ((l.set i q).map f).sum + f p = (l.map f).sum + f q
  | [], i, p, h => by simp at h
  | a :: l, 0, p, h => by
    simp only [List.getElem?_cons_zero, Option.some.injEq] at h
    subst h
    simp only [List.set_cons_zero, List.map_cons, List.sum_cons]
    omega
  | a :: l, i + 1, p, h => by
    simp only [List.getElem?_cons_succ] at h
    have := sum_set f q l i p h
    simp only [List.set_cons_succ, List.map_cons, List.sum_cons]
    omega

theorem increment_zero (p : Position) (g : Nat) : increment p 0 g = 0 := by simp [increment, ceilDiv]

theorem upTo_length (n : Nat) : (upTo n).length = n := by simp [upTo]

theorem upTo_get (n i : Nat) (h : i < n) : (upTo n)[i]? = some (i + 1) := by
  simp [upTo, h]

theorem groupLoads_get (d : TruckData) (i : Nat) (h : i < d.limits.length) :
    (groupLoads d)[i]? = some (groupLoad d.positions (i + 1)) := by
  simp [groupLoads, upTo_get _ _ h]

theorem groupLoads_length (d : TruckData) : (groupLoads d).length = d.limits.length := by
  simp [groupLoads, upTo_length]

theorem groupLoads_getD (d : TruckData) (i : Nat) (h : i < d.limits.length) :
    (groupLoads d).getD i 0 = groupLoad d.positions (i + 1) := by
  simp [List.getD, groupLoads_get d i h]

/-- A position of a record exists at its index. -/
theorem positionAt_get {d : TruckData} {pos : Nat} {p : Position} (h : positionAt d pos = some p) :
    d.positions[pos - 1]? = some p := by
  unfold positionAt at h
  split at h
  · exact h
  · cases h

theorem feasible_parts {d : TruckData} {c : Nat} {loads : List Nat} {p : Position} {m : Nat}
    (h : feasible d c loads p m = true) :
    p.loaded = false ∧ c + m ≤ d.allowance
      ∧ ∀ g, g < d.limits.length → loads.getD g 0 + increment p m (g + 1) ≤ d.limits.getD g 0 := by
  simp only [feasible, Bool.and_eq_true, Bool.not_eq_true', decide_eq_true_eq, List.all_eq_true] at h
  obtain ⟨⟨⟨h1, _⟩, h2⟩, h3⟩ := h
  refine ⟨h1, h2, fun g hg => ?_⟩
  have := h3 (g + 1) (by simp [upTo]; exact hg)
  simpa using this

/-- A coil set on a feasible position keeps the sums law. -/
theorem sums_place {ready : Bool} {d : TruckData} {c : Nat} {loads : List Nat} {pos m coil : Nat} {p : Position}
    (hs : SumsOk (.present ready d c loads)) (hp : positionAt d pos = some p) (hf : feasible d c loads p m = true) :
    SumsOk (.present ready
      { d with positions := setPosition d.positions pos { p with loaded := true, coilId := some coil, weight := some m } }
      (c + m) (addLoads loads p m)) := by
  obtain ⟨h1, _, h3, h4⟩ := hs
  obtain ⟨f1, f2, f3⟩ := feasible_parts hf
  have hg := positionAt_get hp
  have l0 : lyingOn p = 0 := by simp [lyingOn, f1]
  refine ⟨?_, f2, ?_, ?_⟩
  · have := sum_set lyingOn { p with loaded := true, coilId := some coil, weight := some m } _ _ _ hg
    simp only [cumulativeOf, setPosition] at *
    simp only [l0] at this
    simp only [lyingOn] at *
    simp at this ⊢
    omega
  · apply List.ext_getElem?
    intro i
    by_cases hi : i < d.limits.length
    · rw [groupLoads_get { d with positions := setPosition d.positions pos _ } i hi]
      simp only [addLoads, List.getElem?_mapIdx, h3, groupLoads_get d i hi, Option.map_some, Option.some.injEq]
      have := sum_set (fun p => increment p (lyingOn p) (i + 1))
        { p with loaded := true, coilId := some coil, weight := some m } _ _ _ hg
      simp only [l0, increment_zero] at this
      simp only [groupLoad, setPosition]
      simp only [Nat.add_zero] at this
      rw [this]
      simp [lyingOn, increment, shareOf]
    · rw [List.getElem?_eq_none (by simp [addLoads, h3, groupLoads_length]; omega),
        List.getElem?_eq_none (by simp [groupLoads_length]; omega)]
  · intro g hg2
    have := f3 g hg2
    have e : (addLoads loads p m).getD g 0 = loads.getD g 0 + increment p m (g + 1) := by
      have hl : g < loads.length := by rw [h3, groupLoads_length]; exact hg2
      simp [List.getD, addLoads, List.getElem?_mapIdx, List.getElem?_eq_getElem hl]
    rw [e]
    exact this

/-- A coil taken off a position keeps the sums law. -/
theorem sums_pick {ready : Bool} {d : TruckData} {c : Nat} {loads : List Nat} {pos : Nat} {p : Position}
    (hs : SumsOk (.present ready d c loads)) (hp : positionAt d pos = some p) :
    SumsOk (.present ready
      { d with positions := setPosition d.positions pos { p with loaded := false, coilId := none, weight := none } }
      (c - lyingOn p) (subLoads loads p (lyingOn p))) := by
  obtain ⟨h1, h2, h3, h4⟩ := hs
  have hg := positionAt_get hp
  have q0 : lyingOn { p with loaded := false, coilId := none, weight := none } = 0 := by simp [lyingOn]
  refine ⟨?_, ?_, ?_, ?_⟩
  · have := sum_set lyingOn { p with loaded := false, coilId := none, weight := none } _ _ _ hg
    rw [q0] at this
    simp only [cumulativeOf, setPosition] at *
    omega
  · show c - lyingOn p ≤ d.allowance
    omega
  · apply List.ext_getElem?
    intro i
    by_cases hi : i < d.limits.length
    · rw [groupLoads_get { d with positions := setPosition d.positions pos _ } i hi]
      simp only [subLoads, List.getElem?_mapIdx, h3, groupLoads_get d i hi, Option.map_some, Option.some.injEq]
      have := sum_set (fun p => increment p (lyingOn p) (i + 1))
        { p with loaded := false, coilId := none, weight := none } _ _ _ hg
      simp only [q0, increment_zero] at this
      simp only [groupLoad, setPosition]
      omega
    · rw [List.getElem?_eq_none (by simp [subLoads, h3, groupLoads_length]; omega),
        List.getElem?_eq_none (by simp [groupLoads_length]; omega)]
  · intro g hg2
    have := h4 g hg2
    have e : (subLoads loads p (lyingOn p)).getD g 0 = loads.getD g 0 - increment p (lyingOn p) (g + 1) := by
      have hl : g < loads.length := by rw [h3, groupLoads_length]; exact hg2
      simp [List.getD, subLoads, List.getElem?_mapIdx, List.getElem?_eq_getElem hl]
    rw [e]
    show _ ≤ d.limits.getD g 0
    omega

/-- The sums of the checked content of a TRUCK_ARRIVE. -/
theorem sums_within {ready : Bool} {d : TruckData}
    (h : withinLimits d (cumulativeOf d.positions) (groupLoads d) = true) :
    SumsOk (.present ready d (cumulativeOf d.positions) (groupLoads d)) := by
  simp only [withinLimits, Bool.and_eq_true, decide_eq_true_eq, List.all_eq_true] at h
  refine ⟨rfl, h.1, rfl, fun g hg => ?_⟩
  have hl : g < (groupLoads d).length := by rw [groupLoads_length]; exact hg
  have hz : g < ((groupLoads d).zip d.limits).length := by simp; omega
  have := h.2 _ (List.getElem_mem hz)
  simp only [List.getElem_zip] at this
  simpa [List.getD, List.getElem?_eq_getElem hl, List.getElem?_eq_getElem hg] using this

end Sys2Proof.Machine
end

