-- ==== Sys2Proof/Laws/Moves.lean ====
section
/-! SUPPORT. What the shared operations can do, said once. `Move` lists the plain moves of the blocks with the conditions
under which they are made; the lemmas say that each operation, and each hand-on, is a sequence of such moves. A property
that every move keeps is then kept by every operation and by State.finish. -/

namespace Sys2Proof.Machine

/-- One move of a block. The moves with `true` are made by commands alone, never by a hand-on. -/
inductive Move : Bool → State → State → Prop
  | emit {b} (s : State) (e : Event) : Move b s (s.emit e)
  | target {b} (s : State) (o : Nat) (p : TargetPhase) (x y z : Int) : Move b s (s.emitTarget o p x y z)
  | compute {b} (s : State) : Move b s s.compute
  | offer {b} (s : State) (i : TxItem) : Move b s (s.offer i)
  | notice (s : State) (slot : Nat) (k : NoticeKind) (c : Coil) : Move true s (s.issueNotice slot k c)
  | changeWindow {b} (s : State) (bay : Nat) : Move b s (s.openChangeWindow bay)
  | releaseWindow {b} (s : State) (bay : Nat) : Move b s (s.openReleaseWindow bay)
  | claim {b} (s : State) (t : Target) (f : OwnClaim → OwnClaim)
      (h : ∀ c, (f c).target = c.target ∧ ((f c).state = .held → c.state = .held)) : Move b s (putClaim s t f)
  | settle (s : State) (t : Target) : Move true s (putClaim s t fun c => { c with state := .held })
  | addClaim {b} (s : State) (c : OwnClaim) (h : s.clu.claims.length < 6) (hn : findClaim s c.target = none)
      (hr : s.rlc.nodeState = .running) (hs : c.state ≠ .held) : Move b s (addClaim s c)
  | dropClaim {b} (s : State) (t : Target) : Move b s (dropClaim s t)
  | conflicts {b} (s : State) (l : List Nat) : Move b s { s with clu.conflicts := l }
  | doubleHeld {b} (s : State) (l : List (Nat × Nat)) : Move b s { s with clu.doubleHeld := l }
  | slot (s : State) (id : Nat) (r : SlotRec) : Move true s { s with smu := putSlot s.smu id r }
  | weigh (s : State) (w : Wgu) (h : WeighOk s.wgu → WeighOk w) : Move true s { s with wgu := w }
  | closed {b} (s : State) (ss : Session) (h : s.wgu.session = some ss) (ho : isOrder ss = true) :
      Move b s { s with wgu.session := none }
  | truck {b} (s : State) (bay : Nat) (t : Truck) (hv : (s.tbu.trucks.get bay).version ≤ t.version)
      (hc : SumsOk (s.tbu.trucks.get bay).content → SumsOk t.content)
      (hq : b = true ∨ (s.tbu.requests.get bay).isSome = true) :
      Move b s { s with tbu.trucks := s.tbu.trucks.set bay t }
  | required {b} (s : State) (bay v : Nat) (h : s.tbu.required.get bay ≤ v) :
      Move b s { s with tbu.required := s.tbu.required.set bay v }
  | request {b} (s : State) (bay : Nat) (q : Option TruckReq)
      (h : q.isSome = true → (s.tbu.requests.get bay).isSome = true) :
      Move b s { s with tbu.requests := s.tbu.requests.set bay q }
  | limitTold {b} (s : State) (l : PerBay Bool) : Move b s { s with tbu.limitTold := l }
  | orders {b} (s : State) (m : Moc) (h : OrdersOk s.moc → OrdersOk m) : Move b s { s with moc := m }
  | drew (s : State) : Move true s s.drew
  | hand {b} (s : State) (w : Work) : Move b s (s.hand w)
  | served {b} (s : State) (ws : List Work) : Move b s { s with work := ws }

/-- A sequence of moves. -/
inductive Moves (cmd : Bool) : State → State → Prop
  | refl (s : State) : Moves cmd s s
  | tail {s t u : State} (h : Moves cmd s t) (m : Move cmd t u) : Moves cmd s u

theorem Moves.trans {cmd : Bool} {s t u : State} (h : Moves cmd s t) (k : Moves cmd t u) : Moves cmd s u := by
  induction k with
  | refl => exact h
  | tail _ m ih => exact .tail ih m

/-- A move of a hand-on is a move. -/
theorem Move.mono {s t : State} (h : Move false s t) : Move true s t := by
  cases h with
  | closed => rename_i ho h; exact .closed s _ h ho
  | truck => rename_i hv hc _; exact .truck s _ _ hv hc (.inl rfl)
  | _ => constructor <;> assumption

theorem Moves.mono {s t : State} (h : Moves false s t) : Moves true s t := by
  induction h with
  | refl => exact .refl _
  | tail _ m ih => exact .tail ih m.mono

/-- A property that every move keeps is kept by a sequence of moves. -/
theorem Moves.keeps {cmd : Bool} {P : State → Prop} (hP : ∀ s t, Move cmd s t → P s → P t) {s t : State}
    (h : Moves cmd s t) (hs : P s) : P t := by
  induction h with
  | refl => exact hs
  | tail _ m ih => exact hP _ _ m ih

/-- A value that no move changes is unchanged by a sequence of moves. -/
theorem Moves.same {cmd : Bool} {α : Type} (f : State → α) (hf : ∀ s t, Move cmd s t → f t = f s) {s t : State}
    (h : Moves cmd s t) : f t = f s := by
  induction h with
  | refl => rfl
  | tail _ m ih => rw [hf _ _ m, ih]

/-- A fold of an operation that is a sequence of moves. -/
theorem Moves.foldl {cmd : Bool} {α : Type} {f : State → α → State} (hf : ∀ s a, Moves cmd s (f s a)) {s t : State}
    (l : List α) (h : Moves cmd s t) : Moves cmd s (l.foldl f t) := by
  induction l generalizing t with
  | nil => exact h
  | cons a as ih => exact ih (h.trans (hf t a))

section
variable {cmd : Bool} {s u : State}

/-! ## Plain moves behind a sequence -/

theorem Moves.emit (h : Moves cmd s u) (e : Event) : Moves cmd s (u.emit e) := h.tail (.emit u e)
theorem Moves.target (h : Moves cmd s u) (o : Nat) (p : TargetPhase) (x y z : Int) : Moves cmd s (u.emitTarget o p x y z) :=
  h.tail (.target u o p x y z)
theorem Moves.compute (h : Moves cmd s u) : Moves cmd s u.compute := h.tail (.compute u)
theorem Moves.offer (h : Moves cmd s u) (i : TxItem) : Moves cmd s (u.offer i) := h.tail (.offer u i)
theorem Moves.notice (h : Moves true s u) (slot : Nat) (k : NoticeKind) (c : Coil) : Moves true s (u.issueNotice slot k c) :=
  h.tail (.notice u slot k c)
theorem Moves.changeWindow (h : Moves cmd s u) (bay : Nat) : Moves cmd s (u.openChangeWindow bay) := h.tail (.changeWindow u bay)
theorem Moves.releaseWindow (h : Moves cmd s u) (bay : Nat) : Moves cmd s (u.openReleaseWindow bay) :=
  h.tail (.releaseWindow u bay)
theorem Moves.hand (h : Moves cmd s u) (w : Work) : Moves cmd s (u.hand w) := h.tail (.hand u w)
theorem Moves.putClaim (h : Moves cmd s u) (t : Target) (f : OwnClaim → OwnClaim) (hf : ∀ c, (f c).target = c.target ∧ ((f c).state = .held → c.state = .held)) :
    Moves cmd s (putClaim u t f) := h.tail (.claim u t f hf)

/-! ## CLU -/

theorem handChange_moves (h : Moves cmd s u) (t : Target) (st : ClaimState) (left : Bool) (hs : List Holder) :
    Moves cmd s (handChange u t st left hs) := by
  unfold handChange
  dsimp only
  repeat' first | with_reducible assumption | with_reducible apply Moves.hand | split

theorem claimChanged_moves (h : Moves cmd s u) (t : Target) (st : ClaimState) (left : Bool) (hs : List Holder) :
    Moves cmd s (claimChanged u t st left hs) := handChange_moves ((h.compute).emit _) t st left hs

theorem endConflict_moves (h : Moves cmd s u) (z : Nat) : Moves cmd s (endConflict u z) := by
  unfold endConflict
  split
  · exact ((h.tail (.conflicts u _)).emit _).compute
  · exact h

theorem startConflict_moves (h : Moves cmd s u) (z : Nat) : Moves cmd s (startConflict u z) := by
  unfold startConflict
  split
  · exact h
  · exact ((h.tail (.conflicts u _)).emit _).compute

theorem leaveHeld_moves (h : Moves cmd s u) (t : Target) : Moves cmd s (leaveHeld u t) := by
  have h1 : Moves cmd s (match ownBay u t with
      | some bay => u.openReleaseWindow bay
      | none => u) := by split <;> first | exact h.releaseWindow _ | exact h
  unfold leaveHeld
  cases t with
  | zone z => exact endConflict_moves h1 z
  | slot k => exact h1.tail (.doubleHeld _ _)
  | other k id => exact h1

theorem yieldClaim_moves (h : Moves cmd s u) (c : OwnClaim) : Moves cmd s (yieldClaim u c) := by
  unfold yieldClaim
  dsimp only
  apply claimChanged_moves
  apply Moves.offer
  split
  · exact leaveHeld_moves (h.putClaim _ _ (by intro; simp)) _
  · exact h.putClaim _ _ (by intro; simp)

theorem reaskClaim_moves (h : Moves cmd s u) (c : OwnClaim) : Moves cmd s (reaskClaim u c) :=
  claimChanged_moves ((h.putClaim _ _ (by intro; simp)).offer _) _ _ _ _

theorem settleZone_moves (h : Moves cmd s u) (img : Image) (c : OwnClaim) (z : Nat) : Moves cmd s (settleZone u img c z) := by
  unfold settleZone
  dsimp only
  repeat' first | with_reducible assumption | with_reducible apply endConflict_moves | with_reducible apply yieldClaim_moves | with_reducible apply startConflict_moves | split

theorem settleSlot_moves (h : Moves cmd s u) (c : OwnClaim) (k : Nat) : Moves cmd s (settleSlot u c k) := by
  have hk : Moves cmd s (keepDouble u k ((holdingPeers u c.target).map (·.n))) := h.tail (.doubleHeld _ _)
  unfold settleSlot
  dsimp only
  split
  · exact hk
  split
  · exact yieldClaim_moves hk c
  · exact Moves.foldl (fun t n => (Moves.refl t).emit _) _ (hk.tail (.doubleHeld _ _))

theorem settleDouble_moves (h : Moves cmd s u) (c : OwnClaim) : Moves cmd s (settleDouble u c) := by
  unfold settleDouble
  repeat' first | with_reducible assumption | with_reducible apply settleZone_moves | with_reducible apply settleSlot_moves | split

theorem retestClaim_moves (h : Moves cmd s u) (t : Target) : Moves cmd s (retestClaim u t) := by
  unfold retestClaim
  repeat' first | with_reducible assumption | with_reducible apply settleDouble_moves | with_reducible apply yieldClaim_moves | with_reducible apply reaskClaim_moves | split

theorem retestClaims_moves (h : Moves cmd s u) : Moves cmd s (retestClaims u) := by
  unfold retestClaims
  split
  · exact Moves.foldl (fun t a => retestClaim_moves (.refl t) a) _ h
  · exact h

theorem resettleSlots_moves (h : Moves cmd s u) : Moves cmd s (resettleSlots u) := by
  unfold resettleSlots
  split
  · refine Moves.foldl (fun t c => ?_) _ h
    repeat' first | exact .refl _ | with_reducible apply settleDouble_moves | split
  · exact h

theorem resettleZones_moves (h : Moves cmd s u) : Moves cmd s (resettleZones u) := by
  unfold resettleZones
  split
  · refine Moves.foldl (fun t c => ?_) _ h
    repeat' first | exact .refl _ | with_reducible apply settleDouble_moves | split
  · exact h

theorem settleClaim_moves (h : Moves true s u) (c : OwnClaim) : Moves true s (settleClaim u c) :=
  retestClaim_moves (claimChanged_moves (h.tail (.settle u _)) _ _ _ _) _

theorem newClaim_moves (h : Moves cmd s u) (t : Target) (prio : Nat) (k : Holder) (h6 : u.clu.claims.length < 6)
    (hn : findClaim u t = none) (hr : u.rlc.nodeState = .running) : Moves cmd s (newClaim u t prio k).1 := by
  unfold newClaim
  split
  · exact claimChanged_moves (h.tail (.addClaim u _ h6 hn hr (by simp [OwnClaim.fresh]))) _ _ _ _
  · exact claimChanged_moves ((h.tail (.addClaim u _ h6 hn hr (by simp [OwnClaim.fresh]))).offer _) _ _ _ _

theorem raisePrio_moves (h : Moves cmd s u) (c : OwnClaim) (prio : Nat) : Moves cmd s (raisePrio u c prio) := by
  unfold raisePrio
  dsimp only
  split
  · exact claimChanged_moves (h.putClaim _ _ (by intro; simp)) _ _ _ _
  · exact claimChanged_moves ((h.putClaim _ _ (by intro; simp)).offer _) _ _ _ _
  · exact retestClaim_moves (claimChanged_moves (h.putClaim _ _ (by intro; simp)) _ _ _ _) _

/-- An ask is a sequence of moves, whatever it answers (R78). -/
theorem ask_moves (h : Moves cmd s u) (t : Target) (prio : Nat) (k : Holder) : Moves cmd s (ask u t prio k).1 := by
  unfold ask
  split
  · exact h
  rename_i hr
  split
  · exact h
  split
  · split
    · exact h
    dsimp only
    split
    · exact raisePrio_moves (h.putClaim _ _ (by intro; simp)) _ _
    · exact h.putClaim _ _ (by intro; simp)
  · rename_i hn
    split
    · exact h
    · exact newClaim_moves h t prio k (by omega) hn (by simpa using hr)

theorem removeClaim_moves (h : Moves cmd s u) (c : OwnClaim) : Moves cmd s (removeClaim u c) := by
  unfold removeClaim
  dsimp only
  refine (Moves.emit (Moves.compute ?_) _).hand _
  have h1 : Moves cmd s (dropClaim u c.target) := h.tail (.dropClaim u _)
  repeat' first | with_reducible assumption | with_reducible apply leaveHeld_moves | with_reducible apply Moves.offer | split

/-- A release is a sequence of moves (R86, R93). -/
theorem releaseClaim_moves (h : Moves cmd s u) (t : Target) (k : Holder) : Moves cmd s (releaseClaim u t k) := by
  unfold releaseClaim
  dsimp only
  split
  · exact h
  split
  · exact h
  split
  · exact removeClaim_moves h _
  · unfold heldOn
    split
    · exact (h.putClaim _ _ (by intro; simp)).hand _
    · exact h.putClaim _ _ (by intro; simp)

theorem endConflicts_moves (h : Moves cmd s u) : Moves cmd s (endConflicts u) :=
  Moves.foldl (fun t z => endConflict_moves (.refl t) z) _ h

theorem parkClaims_moves (h : Moves cmd s u) : Moves cmd s (parkClaims u) :=
  Moves.foldl (fun t c => removeClaim_moves (.refl t) c) _ (endConflicts_moves h)

/-! ## SMU -/

theorem changeSlot_moves (h : Moves true s u) (img : Image) (id : Nat) (r : SlotRec) (src : ChangeReport) :
    Moves true s (changeSlot u img id r src) := by
  have h1 : Moves true s { u with smu := putSlot u.smu id r } := h.tail (.slot u id r)
  unfold changeSlot
  dsimp only
  repeat' first | with_reducible assumption | with_reducible apply Moves.hand | with_reducible apply Moves.emit | with_reducible apply Moves.compute | split

theorem changeOwn_moves (h : Moves true s u) (img : Image) (id : Nat) (r : SlotRec) (src : ChangeReport) (k : NoticeKind)
    (c : Coil) : Moves true s (changeOwn u img id r src k c) := (changeSlot_moves h img id r src).notice _ _ _

theorem changeByRequest_moves (h : Moves true s u) (img : Image) (id : Nat) (r : SlotRec) (src : ChangeReport) :
    Moves true s (changeByRequest u img id r src) := by
  unfold changeByRequest
  split
  · exact h
  · exact changeSlot_moves h img id r src

theorem pickCommit_moves (h : Moves true s u) (img : Image) (id : Nat) (c : Coil) : Moves true s (pickCommit u img id c) := by
  unfold pickCommit
  split
  · exact h
  · exact changeOwn_moves h _ _ _ _ _ _

theorem placeCommit_moves (h : Moves true s u) (img : Image) (id : Nat) (c : Coil) (r : Option WeighResult) :
    Moves true s (placeCommit u img id c r) := by
  unfold placeCommit
  split
  · exact h
  · exact changeOwn_moves h _ _ _ _ _ _

theorem landingFinding_moves (h : Moves true s u) (img : Image) (id : Nat) (b : Bool) :
    Moves true s (landingFinding u img id b) := by
  unfold landingFinding
  split
  · exact h
  · exact changeOwn_moves h _ _ _ _ _ _

/-! ## WGU -/

theorem markUntracked_moves (h : Moves cmd s u) (c : UntrackedCause) : Moves cmd s (markUntracked u c) := by
  unfold markUntracked
  split
  · exact h
  · exact (h.tail (.orders u _ (by exact id))).emit _

theorem clearUntracked_moves (h : Moves cmd s u) : Moves cmd s (clearUntracked u) := by
  unfold clearUntracked
  split
  · exact h
  · exact (h.tail (.orders u _ (by exact id))).emit _

theorem beginCapture_moves (h : Moves true s u) (k : CaptureKind) : Moves true s (beginCapture u k) :=
  (h.tail (.weigh u _ (by exact id))).emit _

theorem testCapture_moves (h : Moves true s u) : Moves true s (testCapture u) := by
  unfold testCapture
  have h1 : Moves true s { u with wgu.mark := captureConditions u } := h.tail (.weigh u _ (by exact id))
  dsimp only
  split
  · exact beginCapture_moves h1 _
  · exact h1

theorem weighChanged_moves (h : Moves true s u) : Moves true s (weighChanged u) := testCapture_moves (h.emit _)

theorem noSession_ok {w : Wgu} (r : Option WeighResult) (h : WeighOk w) :
    WeighOk { w with session := none, last := r } := ⟨h.1, h.2.1, fun _ k => by cases k⟩

theorem endSession_moves (h : Moves true s u) (img : Image) (ss : Session) (st : WeighStatus) (w : Option Nat) :
    Moves true s (endSession u img ss st w) := by
  unfold endSession
  generalize resultOf img ss.kind st w = r
  have h1 : Moves true s { u with wgu.session := none, wgu.last := some r } :=
    h.tail (.weigh u _ (noSession_ok _))
  apply Moves.emit
  cases ss.kind with
  | order _ _ _ => exact h1.hand _
  | span m =>
    dsimp only
    split
    · exact h1
    · exact weighChanged_moves (h1.tail (.weigh _ _ (by exact id)))

theorem endOrderSession_moves (h : Moves true s u) : Moves true s (endOrderSession u) := by
  unfold endOrderSession
  split
  · split
    · exact endSession_moves h _ _ _ _
    · exact h
  · exact h

theorem endAnySession_moves (h : Moves true s u) : Moves true s (endAnySession u) := by
  unfold endAnySession
  split
  · exact endSession_moves h _ _ _ _
  · exact h

theorem closeSession_moves (h : Moves cmd s u) (id : Nat) : Moves cmd s (closeSession u id) := by
  unfold closeSession
  split
  · exact h
  · rename_i ss hs
    split
    · rename_i hk
      split
      · exact h.tail (.closed u ss hs (by simp [isOrder, hk]))
      · exact h
    · exact h

theorem refuseSession_moves (h : Moves true s u) (img : Image) (ss : Session) : Moves true s (refuseSession u img ss) :=
  ((h.tail (.weigh u _ (by exact id))).hand _).emit _

theorem session_ok {w : Wgu} {ss : Session} (h : WeighOk w) (hl : ss.window.length ≤ 16) :
    WeighOk { w with session := some ss } := ⟨h.1, h.2.1, fun _ k => by cases k; exact hl⟩

theorem startOrderSession_moves (h : Moves true s u) (img : Image) (ss : Session) (hw : ss.window = []) :
    Moves true s (startOrderSession u img ss) := by
  unfold startOrderSession
  split
  · exact h.tail (.weigh u _ fun k => session_ok k (by simp [hw]))
  · exact h.tail (.weigh u _ fun k => session_ok k (by simp [hw]))
  · exact refuseSession_moves h img ss

theorem openOrderSession_moves (h : Moves true s u) (img : Image) (k : SessionKind) (b : Bool) :
    Moves true s (openOrderSession u img k b) := by
  unfold openOrderSession
  dsimp only
  split
  · split
    · exact startOrderSession_moves (endSession_moves h _ _ _ _) _ _ rfl
    · exact refuseSession_moves h _ _
  · exact startOrderSession_moves h _ _ rfl

theorem abandonCapture_moves (h : Moves true s u) (why : AbandonReason) : Moves true s (abandonCapture u why) := by
  unfold abandonCapture
  split
  · exact h
  · rename_i c _
    have h1 : Moves true s (weighChanged (State.emit { u with wgu.capture := none } (.captureAbandoned c.kind why))) :=
      weighChanged_moves ((h.tail (.weigh u _ (by exact id))).emit _)
    dsimp only
    split
    · exact h1
    · exact endOrderSession_moves h1

theorem classChanged_moves (h : Moves true s u) (old : LoadClass) : Moves true s (classChanged u old) := by
  unfold classChanged
  dsimp only
  split
  · exact h
  have h1 : Moves true s (State.compute (u.emit (.loadClass u.wgu.loadClass))) := (h.emit _).compute
  generalize State.compute (u.emit (.loadClass u.wgu.loadClass)) = v at h1
  cases autoRuns u.wgu && u.wgu.loadClass != LoadClass.empty
  · simp only [Bool.false_eq_true, if_false]
    split
    · exact clearUntracked_moves (testCapture_moves h1)
    · exact testCapture_moves h1
  · simp only [if_true]
    split
    · exact clearUntracked_moves (testCapture_moves (abandonCapture_moves h1 _))
    · exact testCapture_moves (abandonCapture_moves h1 _)

theorem keep16_length {α : Type} (xs : List α) (x : α) (h : xs.length ≤ 16) : (keep16 xs x).length ≤ 16 := by
  unfold keep16
  dsimp only
  split <;> simp at * <;> omega

theorem feedClass_moves (h : Moves true s u) (img : Image) (raw net : Int) (b : Bool) :
    Moves true s (feedClass u img raw net b) := by
  unfold feedClass
  dsimp only
  refine h.tail (.weigh u _ ?_)
  rintro ⟨k1, _, k2⟩
  refine ⟨keep16_length _ _ k1, ?_, k2⟩
  dsimp only
  repeat' split
  all_goals omega

theorem feedSession_moves (h : Moves true s u) (net : Int) (b : Bool) : Moves true s (feedSession u net b) := by
  unfold feedSession
  split
  · exact h
  rename_i ss hs
  split
  · exact h.tail (.weigh u _ fun k => session_ok k (keep16_length _ _ (k.2.2 ss hs)))
  · exact h

theorem settleSession_moves (h : Moves true s u) (img : Image) : Moves true s (settleSession u img) := by
  unfold settleSession
  split
  · exact h
  split
  · exact endSession_moves h _ _ _ _
  · exact h

theorem breakSession_moves (h : Moves true s u) : Moves true s (breakSession u) := by
  unfold breakSession
  split
  · exact h
  · exact h.tail (.weigh u _ fun k => session_ok k (by simp))

theorem timeoutSession_moves (h : Moves true s u) (img : Image) (ss : Session) : Moves true s (timeoutSession u img ss) := by
  unfold timeoutSession
  split
  · exact endSession_moves h _ _ _ _
  · exact endSession_moves h _ _ _ _

theorem feedCapture_moves (h : Moves true s u) (raw : Int) (b : Bool) : Moves true s (feedCapture u raw b) := by
  unfold feedCapture
  split
  · exact h
  · split
    · exact h
    · exact h.tail (.weigh u _ (by exact id))

theorem takeZero_moves (h : Moves true s u) (z : Int) : Moves true s (takeZero u z) :=
  h.tail (.weigh u { u.wgu with zero := z, window := [], overCount := 0, session := _ } fun _ =>
    ⟨by simp, by simp, fun ss k => by
      simp only [Option.map_eq_some_iff] at k
      obtain ⟨_, _, rfl⟩ := k
      simp⟩)

theorem completeCapture_moves (h : Moves true s u) (img : Image) (c : Capture) : Moves true s (completeCapture u img c) := by
  unfold completeCapture
  dsimp only
  generalize captureAverage u c = avg
  have h1 : Moves true s { drewAverage u c with wgu.capture := none } := by
    refine Moves.tail ?_ (.weigh (drewAverage u c) _ (by exact id))
    unfold drewAverage
    split
    · exact h.tail (.drew u)
    · exact h
  cases c.kind with
  | auto =>
    dsimp only
    split
    · exact weighChanged_moves ((takeZero_moves (h1.tail (.weigh _ _ (by exact id))) _).emit _)
    · exact endOrderSession_moves (weighChanged_moves ((h1.tail (.weigh _ _ (by exact id))).emit _))
  | verify =>
    exact endOrderSession_moves (weighChanged_moves ((takeZero_moves (h1.tail (.weigh _ _ (by exact id))) _).emit _))

theorem weighPosition_moves (h : Moves true s u) : Moves true s (weighPosition u) := by
  unfold weighPosition
  apply testCapture_moves
  split
  · exact abandonCapture_moves h _
  · split
    · exact abandonCapture_moves h _
    · exact h

theorem weighStale_moves (h : Moves true s u) : Moves true s (weighStale u) := testCapture_moves (abandonCapture_moves h _)

theorem loseCell_moves (h : Moves true s u) : Moves true s (loseCell u) := by
  unfold loseCell
  dsimp only
  have h1 : Moves true s { u with wgu.base := .locked .sensor, wgu.capture := none } := h.tail (.weigh u _ (by exact id))
  generalize ({ u with wgu.base := .locked .sensor, wgu.capture := none } : State) = v at h1
  apply weighChanged_moves
  apply classChanged_moves
  refine Moves.tail ?_ (.weigh _ _ fun k => ⟨by simp, by simp, k.2.2⟩)
  apply endAnySession_moves
  split
  · exact h1.emit _
  · exact h1

theorem findCell_moves (h : Moves true s u) : Moves true s (findCell u) := by
  unfold findCell
  split
  · exact weighChanged_moves (h.tail (.weigh u _ (by exact id)))
  · exact h

theorem feedSample_moves (h : Moves true s u) (img : Image) (raw : Int) (b : Bool) (net : Option Int) :
    Moves true s (feedSample u img raw b net) := by
  unfold feedSample
  split
  · exact breakSession_moves (feedCapture_moves h _ _)
  · exact feedSession_moves (feedClass_moves (feedCapture_moves h _ _) _ _ _ _) _ _

/-- A good load sample in the WGU is a sequence of moves (R126). -/
theorem weighSample_moves (h : Moves true s u) (img : Image) (raw : Int) (b : Bool) (net : Option Int) :
    Moves true s (weighSample u img raw b net) := by
  have h1 := feedSample_moves h img raw b net
  unfold weighSample handFed
  refine settleSession_moves (classChanged_moves ?_ _) _
  split
  · exact abandonCapture_moves h1 _
  · exact h1

/-! ## TBU -/

theorem staleMoved_moves (h : Moves cmd s u) (was : Bool) (bay : Nat) : Moves cmd s (staleMoved was u bay) := by
  unfold staleMoved
  split
  · exact (h.emit _).hand _
  · exact ((h.emit _).hand _).hand _
  · exact h

theorem putRequired_moves (h : Moves cmd s u) (bay v : Nat) : Moves cmd s (putRequired u bay v) :=
  h.tail (.required u bay _ (by omega))

theorem raiseRequired_moves (h : Moves cmd s u) (bay v : Nat) : Moves cmd s (raiseRequired u bay v) :=
  staleMoved_moves (putRequired_moves h bay v) _ bay

@[simp] theorem staleMoved_tbu (was : Bool) (s : State) (bay : Nat) : (staleMoved was s bay).tbu = s.tbu := by
  unfold staleMoved
  split <;> rfl

@[simp] theorem staleMoved_moc (was : Bool) (s : State) (bay : Nat) : (staleMoved was s bay).moc = s.moc := by
  unfold staleMoved
  split <;> rfl

theorem versionCheck_moves (h : Moves cmd s u) (bay : Nat) : Moves cmd s (versionCheck u bay) := by
  unfold versionCheck
  split
  · exact raiseRequired_moves h _ _
  · exact h

theorem tellLimit_moves (h : Moves cmd s u) (bay : Nat) : Moves cmd s (tellLimit u bay) := by
  unfold tellLimit
  split
  · exact h
  · exact (h.tail (.limitTold u _)).emit _

theorem setTruck_moves (h : Moves cmd s u) (bay : Nat) (t : Truck) (hv : (u.tbu.trucks.get bay).version ≤ t.version)
    (hc : SumsOk (u.tbu.trucks.get bay).content → SumsOk t.content)
    (hq : cmd = true ∨ (u.tbu.requests.get bay).isSome = true) : Moves cmd s (setTruck u bay t) :=
  staleMoved_moves (h.tail (.truck u bay t hv hc hq)) _ bay

theorem handBay_moves (h : Moves cmd s u) (bay : Nat) : Moves cmd s (handBay u bay) := by
  unfold handBay
  split
  · exact h.hand _
  · exact h

theorem ownChange_moves (h : Moves cmd s u) (bay : Nat) (c : TruckContent)
    (hc : SumsOk (u.tbu.trucks.get bay).content → SumsOk c)
    (hq : cmd = true ∨ (u.tbu.requests.get bay).isSome = true) : Moves cmd s (ownChange u bay c) :=
  (setTruck_moves h bay _ (by simp only [nextVersion, truckAt]; omega) hc hq).changeWindow _

theorem tellUpdated_moves (h : Moves cmd s u) (bay : Nat) (src : TruckSource) : Moves cmd s (tellUpdated u bay src) := h.emit _

theorem releaseBay_moves (h : Moves cmd s u) (bay : Nat) : Moves cmd s (releaseBay u bay) := by
  unfold releaseBay
  split
  · exact h
  · exact releaseClaim_moves h _ _

theorem dropTruckReq_moves (h : Moves cmd s u) (bay : Nat) : Moves cmd s (dropTruckReq u bay) :=
  h.tail (.request u bay none (by simp))

theorem failTruckReq_moves (h : Moves cmd s u) (bay : Nat) (why : TruckFail) : Moves cmd s (failTruckReq u bay why) :=
  (releaseBay_moves (dropTruckReq_moves h bay) bay).emit _

/-- What a request makes of a record keeps the sums law. -/
theorem requestChange_sums {img : Image} {zn : Zone} {bay : Nat} {k : TruckReqKind} {c : TruckContent}
    (h : requestChange u img zn bay k = .ok c) (hs : SumsOk (u.tbu.trucks.get bay).content) : SumsOk c := by
  unfold requestChange at h
  rw [truckAt] at h
  generalize (u.tbu.trucks.get bay).content = old at h hs
  split at h
  · split at h
    · cases h
    · rename_i hf
      cases h
      unfold arriveFail at hf
      simp at hf
      exact sums_within hf.2
  · cases h
  · cases h
  · cases h
  · cases h; exact hs
  · cases h
  · cases h; exact hs
  · cases h
  · cases h
  · split at h
    · cases h
    · cases h; trivial

theorem applyTruckReq_moves (h : Moves cmd s u) (img : Image) (zn : Zone) (bay : Nat) (k : TruckReqKind)
    (hq : (u.tbu.requests.get bay).isSome = true) : Moves cmd s (applyTruckReq u img zn bay k) := by
  unfold applyTruckReq
  split
  · exact failTruckReq_moves h _ _
  · rename_i c hc
    split
    · exact failTruckReq_moves (tellLimit_moves h _) _ _
    · exact handBay_moves (tellUpdated_moves (releaseBay_moves
        (dropTruckReq_moves (ownChange_moves h bay c (requestChange_sums hc) (.inr hq)) bay) bay) bay _) bay

theorem pursueTruckReq_moves (h : Moves cmd s u) (img : Image) (zn : Zone) (bay : Nat) (q : TruckReq)
    (hq : (u.tbu.requests.get bay).isSome = true) : Moves cmd s (pursueTruckReq u img zn bay q) := by
  have h1 := versionCheck_moves h bay
  have e : (versionCheck u bay).tbu.requests = u.tbu.requests := by
    unfold versionCheck raiseRequired
    split
    · rw [staleMoved_tbu]
      rfl
    · rfl
  unfold pursueTruckReq
  dsimp only
  split
  · exact h1.tail (.request _ bay _ (fun _ => by rw [e]; exact hq))
  · exact applyTruckReq_moves h1 _ _ _ _ (by rw [e]; exact hq)

theorem bayClaimChanged_moves (h : Moves cmd s u) (bay : Nat) : Moves cmd s (bayClaimChanged u bay) := by
  unfold bayClaimChanged
  split
  · exact h
  split
  · exact h
  dsimp only
  split
  · split
    · exact versionCheck_moves h _
    · exact h
  · rename_i q hq
    split
    · exact pursueTruckReq_moves h _ _ _ _ (by rw [hq]; rfl)
    · exact h.tail (.request u bay _ (fun _ => by rw [hq]; rfl))

theorem staleEnded_moves (h : Moves cmd s u) (bay : Nat) : Moves cmd s (staleEnded u bay) := by
  unfold staleEnded
  split
  · exact h
  split
  · rename_i q _ hq
    split
    · exact pursueTruckReq_moves h _ _ _ _ (by rw [hq]; rfl)
    · exact h
  · exact h

theorem withdrawTruckReqs_moves (h : Moves cmd s u) (why : TruckFail) : Moves cmd s (withdrawTruckReqs u why) := by
  refine Moves.foldl (fun t bay => ?_) _ h
  unfold withdrawTruckReq
  split
  · exact .refl t
  · exact failTruckReq_moves (.refl t) _ _

/-- The checked content of a peer's record keeps the sums law. -/
theorem stateFail_sums {img : Image} {zn : Zone} {c : TruckContent} (h : stateFail img zn c = none) : SumsOk c := by
  cases c with
  | noTruck => trivial
  | present r d cum loads =>
    unfold stateFail at h
    cases hd : dataFail img zn d with
    | some f => simp [hd] at h
    | none =>
      simp only [hd, Option.orElse, ite_eq_left_iff, reduceCtorEq, imp_false, not_not] at h
      obtain ⟨rfl, rfl, hw⟩ := h
      exact sums_within hw

theorem applyTruckState_moves (h : Moves true s u) (n bay v : Nat) (c : TruckContent)
    (hv : (u.tbu.trucks.get bay).version ≤ v) (hc : SumsOk c) : Moves true s (applyTruckState u n bay v c) := by
  have h1 := handBay_moves (tellUpdated_moves (staleMoved_moves
    (putRequired_moves (h.tail (.truck u bay ⟨v, c⟩ hv (fun _ => hc) (.inl rfl))) bay (highestSeen u.ptb bay))
    (bayStale u.tbu bay) bay) bay (.peer n)) bay
  unfold applyTruckState
  dsimp only
  split
  · exact h1
  · exact h1.hand _

/-- A peer's TRUCK_STATE is a sequence of moves (R163, R164). -/
theorem takeTruckState_moves (h : Moves true s u) (n bay v : Nat) (c : TruckContent) :
    Moves true s (takeTruckState u n bay v c) := by
  unfold takeTruckState
  split
  · exact h
  split
  · exact h
  split
  · exact h.emit _
  rename_i hf
  dsimp only
  split
  · exact h
  split
  · split
    · exact h
    · exact raiseRequired_moves (h.emit _) _ _
  · rename_i h1 h2
    exact applyTruckState_moves h _ _ _ _ (by simp only [truckAt] at *; omega) (stateFail_sums hf)

theorem loseCommit_moves (h : Moves cmd s u) (bay pos coil : Nat) (f : CommitFail) :
    Moves cmd s (loseCommit u bay pos coil f) := by
  unfold loseCommit
  split
  · exact (tellLimit_moves h _).emit _
  · exact h.emit _

/-- The trailer place commit is a sequence of moves (R169). -/
theorem trailerPlaceCommit_moves (h : Moves true s u) (bay pos coil m : Nat) :
    Moves true s (trailerPlaceCommit u bay pos coil m) := by
  have h1 := versionCheck_moves h bay
  unfold trailerPlaceCommit
  generalize versionCheck u bay = v at h1
  dsimp only
  split
  · exact loseCommit_moves h1 _ _ _ _
  rename_i hc
  split
  · exact loseCommit_moves h1 _ _ _ _
  rename_i hp
  split
  · exact loseCommit_moves h1 _ _ _ _
  split
  · exact loseCommit_moves h1 _ _ _ _
  rename_i hf
  split
  · exact loseCommit_moves h1 _ _ _ _
  · refine handBay_moves (tellUpdated_moves (ownChange_moves h1 _ _ (fun hs => ?_) (.inl rfl)) _ _) _
    rw [truckAt] at hc
    rw [hc] at hs
    exact sums_place hs hp (by simpa using hf)

/-- The trailer pick commit is a sequence of moves (R170). -/
theorem trailerPickCommit_moves (h : Moves true s u) (bay pos coil : Nat) (found : Bool) :
    Moves true s (trailerPickCommit u bay pos coil found) := by
  have h1 := versionCheck_moves h bay
  unfold trailerPickCommit
  generalize versionCheck u bay = v at h1
  dsimp only
  split
  · exact loseCommit_moves h1 _ _ _ _
  rename_i hc
  split
  · exact loseCommit_moves h1 _ _ _ _
  rename_i hp
  split
  · exact loseCommit_moves h1 _ _ _ _
  split
  · exact loseCommit_moves h1 _ _ _ _
  split
  · exact h1
  · have h2 : ∀ c, (SumsOk (v.tbu.trucks.get bay).content → SumsOk c) →
        Moves true s (handBay (tellUpdated (ownChange v bay c) bay .own) bay) := fun c k =>
      handBay_moves (tellUpdated_moves (ownChange_moves h1 _ _ k (.inl rfl)) _ _) _
    have h3 := h2 _ fun hs => by
      rw [truckAt] at hc
      rw [hc] at hs
      exact sums_pick hs hp
    split
    · exact h3.emit _
    · exact h3

/-! ## MOC -/

theorem setActive_moves (h : Moves cmd s u) (f : Active → Active)
    (hf : ∀ a, a.excluded.length ≤ 8 → (f a).excluded.length ≤ 8) : Moves cmd s (setActive u f) := by
  refine h.tail (.orders u _ ?_)
  rintro ⟨k1, k2, k3⟩
  refine ⟨?_, k2, ?_⟩
  · cases hu : u.moc.active <;> simpa [queueIds, hu] using k1
  · intro a ha
    simp only [Option.map_eq_some_iff] at ha
    obtain ⟨b, hb, rfl⟩ := ha
    exact hf b (k3 b hb)

theorem sendTarget_moves (h : Moves cmd s u) : Moves cmd s (sendTarget u) := by
  unfold sendTarget
  split
  · exact h
  · exact h.target _ _ _ _ _

/-- Aiming changes the target and the contact height of an order alone. -/
@[simp] theorem aimed_ord (a : Active) (img : Image) : (a.aimed img).ord = a.ord := by
  unfold Active.aimed
  split <;> rfl

@[simp] theorem aimed_excluded (a : Active) (img : Image) : (a.aimed img).excluded = a.excluded := by
  unfold Active.aimed
  split <;> rfl

theorem enterPhase_moves (h : Moves cmd s u) (img : Image) (p : Phase) : Moves cmd s (enterPhase u img p) := by
  unfold enterPhase
  split
  · exact h
  rename_i a ha
  refine Moves.hand (Moves.compute (sendTarget_moves (Moves.emit (h.tail (.orders u _ ?_)) _))) _
  rintro ⟨k1, k2, k3⟩
  refine ⟨?_, k2, ?_⟩
  · simpa [queueIds, ha, Active.entering] using k1
  · intro b hb
    cases hb
    simpa [Active.entering] using k3 a ha

theorem enterDecide_moves (h : Moves cmd s u) (img : Image) : Moves cmd s (enterDecide u img) := (enterPhase_moves h _ _).hand _

theorem releaseUnneeded_moves (h : Moves cmd s u) (t : Target) : Moves cmd s (releaseUnneeded u t) := by
  unfold releaseUnneeded
  split
  · exact h
  split
  · exact h
  · exact releaseClaim_moves h _ _

theorem dropSource_moves (h : Moves cmd s u) (t : Target) : Moves cmd s (dropSource u t) :=
  releaseUnneeded_moves (setActive_moves h _ (by exact fun _ k => k)) _

theorem dropDest_moves (h : Moves cmd s u) (t : Target) : Moves cmd s (dropDest u t) :=
  releaseUnneeded_moves (setActive_moves h _ (by exact fun _ k => k)) _

theorem dropTransit_moves (h : Moves cmd s u) (z : Nat) : Moves cmd s (dropTransit u z) :=
  releaseUnneeded_moves (setActive_moves h _ (by exact fun _ k => k)) _

theorem dropDests_moves (h : Moves cmd s u) : Moves cmd s (dropDests u) := by
  unfold dropDests
  split
  · exact h
  · exact Moves.foldl (fun t x => dropDest_moves (.refl t) x) _ h

theorem keepEnded_moves (h : Moves cmd s u) (e : Ended) : Moves cmd s (keepEnded u e) := by
  refine h.tail (.orders u _ ?_)
  rintro ⟨k1, k2, k3⟩
  exact ⟨k1, by simp, k3⟩

theorem noActive_ok {m : Moc} (h : OrdersOk m) : OrdersOk { m with active := none } := by
  obtain ⟨k1, k2, _⟩ := h
  refine ⟨?_, k2, fun _ k => by cases k⟩
  simp only [queueIds, List.length_append, List.length_map, Option.map_none, Option.toList_none, List.length_nil] at *
  omega

theorem finishOrder_moves (h : Moves cmd s u) (rec : Ended) : Moves cmd s (finishOrder u rec) := by
  unfold finishOrder
  dsimp only
  apply Moves.hand
  apply keepEnded_moves
  apply Moves.compute
  refine Moves.tail ?_ (.orders _ _ noActive_ok)
  unfold markAtEnd
  split
  · exact (h.target _ _ _ _ _).emit _
  · exact markUntracked_moves ((h.target _ _ _ _ _).emit _) _
  · exact markUntracked_moves ((h.target _ _ _ _ _).emit _) _

/-- The end of an order is a sequence of moves (R195). -/
theorem endOrder_moves (h : Moves cmd s u) (e : OrderEnd) : Moves cmd s (endOrder u e) := by
  unfold endOrder
  split
  · exact h
  · exact finishOrder_moves (Moves.foldl (fun t x => releaseClaim_moves (.refl t) x _) _ (closeSession_moves h _)) _

theorem askOne_moves (h : Moves cmd s u) (t : Target) : Moves cmd s (askOne u t) := by
  unfold askOne
  split
  · exact h
  rename_i a _
  split
  · exact setActive_moves h _ (by exact fun _ k => k)
  have h1 := ask_moves h t a.ord.prio .order
  generalize ask u t a.ord.prio .order = r at h1
  obtain ⟨v, ans⟩ := r
  cases ans with
  | listFull => exact setActive_moves h1 _ (by exact fun _ k => k)
  | badTarget => exact endOrder_moves h1 _
  | badState => exact h1
  | answered st => exact h1

theorem askTargets_moves (h : Moves cmd s u) (ts : List Target) : Moves cmd s (askTargets u ts) :=
  Moves.foldl (fun t x => askOne_moves (.refl t) x) _ (setActive_moves h _ (by exact fun _ k => k))

theorem askTransits_moves (h : Moves cmd s u) (n : Nat) (img : Image) : Moves cmd s (askTransits n u img) := by
  induction n generalizing u with
  | zero => exact h
  | succ n ih =>
    unfold askTransits
    split
    · exact h
    split
    · exact h
    split
    · exact h
    split
    · exact h
    split
    · exact h
    · dsimp only
      split
      · exact ih (askTargets_moves (setActive_moves h _ (by exact fun _ k => k)) _)
      · exact askTargets_moves (setActive_moves h _ (by exact fun _ k => k)) _

theorem askTransit_moves (h : Moves cmd s u) (img : Image) : Moves cmd s (askTransit u img) :=
  askTransits_moves h 5 img

theorem releaseTransits_moves (h : Moves cmd s u) (img : Image) : Moves cmd s (releaseTransits u img) := by
  unfold releaseTransits
  split
  · exact h
  · exact Moves.foldl (fun t x => dropTransit_moves (.refl t) x) _ h

theorem releaseSourceZone_moves (h : Moves cmd s u) (img : Image) : Moves cmd s (releaseSourceZone u img) := by
  unfold releaseSourceZone
  split
  · exact h
  split
  · exact Moves.foldl (fun t x => dropSource_moves (.refl t) x) _ h
  · exact h

theorem sourceVersion_moves (h : Moves cmd s u) (src : Source) : Moves cmd s (sourceVersion u src) := by
  unfold sourceVersion
  split
  · exact h
  · exact versionCheck_moves h _

theorem tellSourceLimit_moves (h : Moves cmd s u) (src : Source) (ans : SourceAnswer) :
    Moves cmd s (tellSourceLimit u src ans) := by
  unfold tellSourceLimit
  split
  · exact tellLimit_moves h _
  · exact h

@[simp] theorem versionCheck_moc (s : State) (bay : Nat) : (versionCheck s bay).moc = s.moc := by
  unfold versionCheck raiseRequired
  split
  · rw [staleMoved_moc]
    rfl
  · rfl

@[simp] theorem sourceVersion_moc (s : State) (src : Source) : (sourceVersion s src).moc = s.moc := by
  unfold sourceVersion
  split
  · rfl
  · exact versionCheck_moc _ _

@[simp] theorem tellLimit_moc (s : State) (bay : Nat) : (tellLimit s bay).moc = s.moc := by
  unfold tellLimit
  split <;> rfl

@[simp] theorem tellSourceLimit_moc (s : State) (src : Source) (ans : SourceAnswer) :
    (tellSourceLimit s src ans).moc = s.moc := by
  unfold tellSourceLimit
  split
  · exact tellLimit_moc _ _
  · rfl

theorem enterClaimSource_moves (h : Moves cmd s u) (img : Image) : Moves cmd s (enterClaimSource u img) := by
  have h1 := enterPhase_moves h img .claimSource
  unfold enterClaimSource
  dsimp only
  split
  · exact h1
  · exact (askTargets_moves h1 _).hand _

theorem enterClaimDest_moves (h : Moves cmd s u) (img : Image) : Moves cmd s (enterClaimDest u img) := by
  have h1 := enterPhase_moves h img .claimDest
  unfold enterClaimDest
  dsimp only
  split
  · exact h1
  · exact (askTargets_moves h1 _).hand _

/-- The test of activation is a sequence of moves (R177). -/
theorem activate_moves (h : Moves cmd s u) : Moves cmd s (activate u) := by
  unfold activate
  split
  · rename_i img o rest hn _ hw
    split
    · exact h
    dsimp only
    have h1 := sourceVersion_moves h o.source
    have e1 : (sourceVersion u o.source).moc = u.moc := sourceVersion_moc _ _
    generalize sourceVersion u o.source = v at h1 e1
    generalize sourceTest v img o = found
    have h2 := tellSourceLimit_moves h1 o.source found.answer
    have e2 : (tellSourceLimit v o.source found.answer).moc = u.moc := by rw [tellSourceLimit_moc, e1]
    generalize tellSourceLimit v o.source found.answer = w at h2 e2
    split
    · refine finishOrder_moves (h2.tail (.orders w _ ?_)) _
      rintro ⟨k1, k2, k3⟩
      refine ⟨?_, k2, k3⟩
      simp only [e2, queueIds, hn, hw, List.length_append, List.length_map, List.length_cons] at *
      omega
    · refine enterClaimSource_moves (h2.tail (.orders w _ ?_)) _
      rintro ⟨k1, k2, k3⟩
      refine ⟨?_, k2, fun a ha => by cases ha; simp [newActive]⟩
      simp only [e2, queueIds, hn, hw, List.length_append, List.length_map, List.length_cons, Option.map_none,
        Option.toList_none, List.length_nil, Option.map_some, Option.toList_some] at *
      omega
  · exact h

theorem excludeSlot_length (xs : List Nat) (id : Nat) (h : xs.length ≤ 8) : (excludeSlot xs id).length ≤ 8 := by
  unfold excludeSlot
  split
  · exact h
  split
  · simp; omega
  · simp; omega

theorem giveUpSlot_moves (h : Moves cmd s u) (img : Image) (id : Nat) : Moves cmd s (giveUpSlot u img id) :=
  enterDecide_moves (setActive_moves (dropDest_moves h _) _ (by exact fun _ k => excludeSlot_length _ _ k)) _

theorem tellIfLimit_moves (h : Moves cmd s u) (bay : Nat) (r : Except DestFail (Nat × Place)) :
    Moves cmd s (tellIfLimit u bay r) := by
  unfold tellIfLimit
  split
  · exact tellLimit_moves h _
  · exact h

theorem tryDest_moves (h : Moves cmd s u) (img : Image) (a : Active) (d : Dest) : Moves cmd s (tryDest u img a d).1 := by
  unfold tryDest
  split
  · split <;> exact h
  · split
    · exact h.emit _
    · split
      · exact h
      · exact h.emit _
  · dsimp only
    split
    · exact tellIfLimit_moves (versionCheck_moves h _) _ _
    · exact (versionCheck_moves h _).emit _

theorem tryPrimary_moves (h : Moves cmd s u) (img : Image) (a : Active) : Moves cmd s (tryPrimary u img a).1 := by
  unfold tryPrimary
  split
  · exact h
  · exact tryDest_moves h _ _ _

theorem tryAlternate_moves (h : Moves cmd s u) (img : Image) (a : Active) : Moves cmd s (tryAlternate u img a).1 := by
  unfold tryAlternate
  split
  · exact h
  · exact tryDest_moves h _ _ _

theorem useDest_moves (h : Moves cmd s u) (img : Image) (d : DestUse) (p : Place) (why : Option DestFail) :
    Moves cmd s (useDest u img d p why) := by
  unfold useDest
  dsimp only
  split
  · exact h
  · exact enterClaimDest_moves (setActive_moves (Moves.foldl (fun t x => dropDest_moves (.refl t) x) _ h) _
      (by exact fun _ k => k)) _

theorem enterHold_moves (h : Moves cmd s u) (img : Image) (p q : DestFail) : Moves cmd s (enterHold u img p q) := by
  unfold enterHold
  split
  · exact h
  · exact (dropDests_moves (enterPhase_moves h _ _)).emit _

/-- DECIDE is a sequence of moves (R186, R187). -/
theorem settleDest_moves (h : Moves cmd s u) : Moves cmd s (settleDest u) := by
  unfold settleDest
  split
  · rename_i a img _ _
    split
    · exact h
    have h1 := tryPrimary_moves h img a
    generalize tryPrimary u img a = r at h1
    obtain ⟨v, r⟩ := r
    cases r with
    | ok q => exact useDest_moves h1 _ _ _ _
    | error why =>
      dsimp only
      have h2 := tryAlternate_moves h1 img a
      dsimp only at h2
      generalize tryAlternate v img a = r at h2
      obtain ⟨w, r⟩ := r
      cases r with
      | ok q => exact useDest_moves (h2.emit _) _ _ _ _
      | error _ => exact enterHold_moves h2 _ _ _
  · exact h

theorem positionFits_moves (h : Moves cmd s u) (img : Image) (a : Active) (bay pos : Nat) :
    Moves cmd s (positionFits u img a bay pos).1 := by
  unfold positionFits
  dsimp only
  split
  · exact versionCheck_moves h _
  · exact tellIfLimit_moves (versionCheck_moves h _) _ _

theorem setDestPlace_moves (h : Moves cmd s u) (p : Place) : Moves cmd s (setDestPlace u p) :=
  setActive_moves h _ (by exact fun _ k => k)

theorem arrive_moves (h : Moves cmd s u) (img : Image) : Moves cmd s (arrive u img) := by
  unfold arrive
  split
  · exact h
  split
  · exact enterPhase_moves h _ _
  · rename_i a _ _ _ b p _ _
    have h1 := positionFits_moves h img a b p
    generalize positionFits u img a b p = r at h1
    obtain ⟨v, ok⟩ := r
    cases ok
    · exact enterDecide_moves h1 _
    · exact enterPhase_moves (setDestPlace_moves h1 _) _ _
  · exact enterPhase_moves h _ _
  · exact h

theorem entryTest_moves (h : Moves cmd s u) (img : Image) : Moves cmd s (entryTest u img) := by
  unfold entryTest
  split
  · exact h
  split
  · exact h
  split
  · split
    · exact arrive_moves h _
    · exact h
  · split
    · exact arrive_moves h _
    · exact h
  · split
    · exact endOrder_moves h _
    · exact h
  · exact h

theorem enterTested_moves (h : Moves cmd s u) (img : Image) (p : Phase) : Moves cmd s (enterTested u img p) :=
  (enterPhase_moves h _ _).hand _

theorem claimSourceTest_moves (h : Moves cmd s u) (img : Image) (a : Active) : Moves cmd s (claimSourceTest u img a) := by
  unfold claimSourceTest
  dsimp only
  have h1 := sourceVersion_moves h a.ord.source
  generalize sourceVersion u a.ord.source = v at h1
  generalize sourceTest v img a.ord = found
  have h2 := tellSourceLimit_moves h1 a.ord.source found.answer
  generalize tellSourceLimit v a.ord.source found.answer = w at h2
  split
  · exact enterTested_moves (setActive_moves h2 _ (by exact fun _ k => k)) _ _
  · exact h2
  · exact h2
  · exact endOrder_moves h2 _

theorem claimDestTest_moves (h : Moves cmd s u) (img : Image) (a : Active) : Moves cmd s (claimDestTest u img a) := by
  unfold claimDestTest
  split
  · rename_i b p _
    have h1 := positionFits_moves h img a b p
    generalize positionFits u img a b p = r at h1
    obtain ⟨v, ok⟩ := r
    cases ok
    · exact enterDecide_moves h1 _
    · exact enterTested_moves (setDestPlace_moves h1 _) _ _
  · exact enterTested_moves h _ _

theorem progress_moves (h : Moves cmd s u) : Moves cmd s (progress u) := by
  unfold progress
  split
  · split
    · split
      · exact claimSourceTest_moves h _ _
      · exact h
    · split
      · exact giveUpSlot_moves h _ _
      · split
        · exact claimDestTest_moves h _ _
        · exact h
    · exact entryTest_moves (askTransit_moves h _) _
    · exact entryTest_moves (askTransit_moves h _) _
    · exact entryTest_moves h _
    · exact h
  · exact h

theorem claimLeft_moves (h : Moves cmd s u) (img : Image) (a : Active) (t : Target) : Moves cmd s (claimLeft u img a t) := by
  unfold claimLeft
  split
  · split
    · exact enterClaimSource_moves h _
    · exact h
  · split
    · split
      · exact giveUpSlot_moves h _ _
      · exact h
      · exact h
    · exact h
  · split
    · split
      · exact giveUpSlot_moves h _ _
      · exact enterClaimDest_moves h _
      · exact h
    · exact h
  · exact h

theorem orderClaimChanged_moves (h : Moves cmd s u) (id : Nat) (t : Target) (left : Bool) :
    Moves cmd s (orderClaimChanged u id t left) := by
  unfold orderClaimChanged
  split
  · split
    · exact h
    split
    · exact claimLeft_moves h _ _ _
    · unfold claimMoved
      split
      · exact progress_moves h
      · exact progress_moves h
      · exact askTransit_moves h _
      · exact askTransit_moves h _
      · exact h
  · exact h

theorem askAgain_moves (h : Moves cmd s u) : Moves cmd s (askAgain u) := by
  unfold askAgain
  split
  · split
    · exact h
    split
    · exact (askTargets_moves h _).hand _
    · exact (askTargets_moves h _).hand _
    · exact askTransit_moves (setActive_moves h _ (by exact fun _ k => k)) _
    · exact askTransit_moves (setActive_moves h _ (by exact fun _ k => k)) _
    · exact h
  · exact h

theorem openFor_moves (h : Moves true s u) (img : Image) (a : Active) (b : Bool) : Moves true s (openFor u img a b) :=
  openOrderSession_moves h _ _ _

/-- A stack stands on the order's source just where the source is a slot with an upper slot over it that is not EMPTY. -/
theorem underStack_iff (s : State) (img : Image) (a : Active) :
    underStack s img a = true ↔ ∃ id, a.ord.source = .slot id ∧ stackOver img s.smu id ≠ [] := by
  unfold underStack
  cases a.ord.source with
  | slot id => simp
  | bay b p => simp

/-- A position sample in LIFT before lift-off, under a stack, ends the order and commits nothing (R114). -/
theorem watchLift_of_stack {s : State} {img : Image} {a : Active} (hl : a.lifted = false)
    (h : underStack s img a = true) : watchLift s img a = endOrder s (.failed .sourceBuried) := by
  simp [watchLift, hl, h]

theorem gripClosed_moves (h : Moves true s u) (img : Image) (a : Active) : Moves true s (gripClosed u img a) := by
  have h1 := openFor_moves (enterPhase_moves
    (setActive_moves h (fun a => { a with gripHeight := some u.sample.z }) (by exact fun _ k => k)) img .lift) img a
    false
  unfold gripClosed
  dsimp only
  split
  · exact h1
  · split
    · exact endOrder_moves (setActive_moves h _ (by exact fun _ k => k)) _
    · split
      · exact endOrder_moves h1 _
      · exact h1

theorem watchGrip_moves (h : Moves true s u) (img : Image) (a : Active) : Moves true s (watchGrip u img a) := by
  unfold watchGrip
  split
  · exact h
  split
  · exact gripClosed_moves h _ _
  split
  · exact h
  · exact (setActive_moves h _ (by exact fun _ k => k)).emit _

theorem liftEmpty_moves (h : Moves true s u) (img : Image) (a : Active) : Moves true s (liftEmpty u img a) := by
  unfold liftEmpty
  apply endOrder_moves
  split
  · exact landingFinding_moves h _ _ _
  · exact trailerPickCommit_moves h _ _ _ _

theorem liftLoaded_moves (h : Moves true s u) (img : Image) (a : Active) : Moves true s (liftLoaded u img a) := by
  unfold liftLoaded
  cases a.ord.source with
  | slot id =>
    have h1 := dropSource_moves (setActive_moves (pickCommit_moves h img id a.coil)
      (fun a => { a with lifted := true }) (by exact fun _ k => k)) (.slot id)
    dsimp only
    split
    · exact enterDecide_moves h1 _
    · exact openFor_moves h1 _ _ _
  | bay b p =>
    have h1 := setActive_moves (trailerPickCommit_moves h b p a.ord.coil false)
      (fun a => { a with lifted := true }) (by exact fun _ k => k)
    dsimp only
    split
    · exact enterDecide_moves h1 _
    · exact openFor_moves h1 _ _ _

theorem watchLift_moves (h : Moves true s u) (img : Image) (a : Active) : Moves true s (watchLift u img a) := by
  unfold watchLift
  split
  · exact h
  split
  · exact endOrder_moves h _
  split
  · exact h
  split
  · exact liftEmpty_moves h _ _
  · exact liftLoaded_moves h _ _

theorem takeResult_moves (h : Moves cmd s u) (r : WeighResult) (b : Bool) : Moves cmd s (takeResult u r b) := by
  unfold takeResult
  split
  · split
    · exact h
    split
    · split
      · exact enterDecide_moves (setActive_moves h _ (by exact fun _ k => k)) _
      · exact h
    · split
      · exact setActive_moves h _ (by exact fun _ k => k)
      · exact h
  · exact h

theorem earlyContact_moves (h : Moves true s u) (img : Image) (a : Active) : Moves true s (earlyContact u img a) := by
  have h1 := sendTarget_moves (setActive_moves h (fun a => { a with targetZ := img.travelHeight })
    (by exact fun _ k => k))
  unfold earlyContact
  dsimp only
  split
  · exact giveUpSlot_moves (landingFinding_moves h1 _ _ _) _ _
  · exact enterDecide_moves ((setActive_moves h1 _ (by exact fun _ k => k)).emit _) _
  · exact enterDecide_moves h1 _

/-- The landing watch is a sequence of moves (R190, R191). -/
theorem landingWatch_moves (h : Moves true s u) (net : Option Int) : Moves true s (landingWatch u net) := by
  unfold landingWatch
  split
  · split
    · unfold landed
      dsimp only
      split
      · exact earlyContact_moves h _ _
      · split
        · exact enterPhase_moves (h.emit _) _ _
        · exact enterPhase_moves h _ _
    · exact enterPhase_moves h _ _
    · exact h
  · exact h

theorem gripOpened_moves (h : Moves true s u) (img : Image) (a : Active) : Moves true s (gripOpened u img a) := by
  unfold gripOpened
  apply enterTested_moves
  split
  · exact placeCommit_moves h _ _ _ _
  · exact trailerPlaceCommit_moves h _ _ _ _
  · exact h

theorem decideSample_moves (h : Moves true s u) (img : Image) (a : Active) : Moves true s (decideSample u img a) := by
  unfold decideSample
  split
  · split
    · exact arrive_moves h _
    · exact h
  · split
    · exact arrive_moves h _
    · exact h
  · exact watchGrip_moves h _ _
  · exact watchLift_moves h _ _
  · split
    · exact gripOpened_moves h _ _
    · exact h
  · split
    · exact endOrder_moves h _
    · exact h
  · exact h

/-- A taken position sample in the MOC is a sequence of moves (R182 to R191). -/
theorem ordersSample_moves (h : Moves true s u) : Moves true s (ordersSample u) := by
  unfold ordersSample
  split
  · exact askTransit_moves (releaseTransits_moves (releaseSourceZone_moves (decideSample_moves h _ _) _) _) _
  · exact h

theorem sourceSlotChanged_moves (h : Moves cmd s u) (img : Image) (a : Active) (id : Nat) :
    Moves cmd s (sourceSlotChanged u img a id) := by
  unfold sourceSlotChanged
  split
  · exact progress_moves h
  · split
    · exact endOrder_moves h _
    · exact h
  · split
    · exact endOrder_moves h _
    · exact h
  · split
    · exact endOrder_moves h _
    · exact h
  · exact h

theorem destSlotChanged_moves (h : Moves cmd s u) (img : Image) (a : Active) (id : Nat) :
    Moves cmd s (destSlotChanged u img a id) := by
  unfold destSlotChanged
  split
  · split
    · exact giveUpSlot_moves h _ _
    · exact h
  · split
    · exact giveUpSlot_moves h _ _
    · exact h
  · exact h

theorem orderSlotChanged_moves (h : Moves cmd s u) (id : Nat) : Moves cmd s (orderSlotChanged u id) := by
  unfold orderSlotChanged
  split
  · rename_i a img _ _
    have h1 : Moves cmd s (if a.ord.source = .slot id then sourceSlotChanged u img a id else u) := by
      split
      · exact sourceSlotChanged_moves h _ _ _
      · exact h
    generalize (if a.ord.source = .slot id then sourceSlotChanged u img a id else u) = v at h1
    dsimp only
    split
    · split
      · exact destSlotChanged_moves h1 _ _ _
      · exact h1
    · exact h1
  · exact h

theorem sourceBayChanged_moves (h : Moves cmd s u) (img : Image) (a : Active) (b p : Nat) :
    Moves cmd s (sourceBayChanged u img a b p) := by
  have h1 := versionCheck_moves h b
  have h2 : Moves cmd s (match (trailerSource (versionCheck u b) img b p).1 with
      | .failed r => endOrder (tellSourceLimit (versionCheck u b) (.bay b p) (.failed r)) (.failed r)
      | _ => versionCheck u b) := by
    split
    · exact endOrder_moves (tellSourceLimit_moves h1 _ _) _
    · exact h1
  unfold sourceBayChanged
  dsimp only
  split
  · exact progress_moves h
  · exact h2
  · exact h2
  · exact h

theorem destBayChanged_moves (h : Moves cmd s u) (img : Image) (a : Active) (b p : Nat) :
    Moves cmd s (destBayChanged u img a b p) := by
  have h1 := positionFits_moves h img a b p
  unfold destBayChanged
  generalize positionFits u img a b p = r at h1
  obtain ⟨v, ok⟩ := r
  cases ok <;> dsimp only at h1 ⊢ <;> split
  · exact enterDecide_moves h1 _
  · exact enterDecide_moves h1 _
  · exact h
  · exact h1
  · exact h1
  · exact h

theorem bayAtSource_moves (h : Moves cmd s u) (img : Image) (a : Active) (bay : Nat) :
    Moves cmd s (bayAtSource u img a bay) := by
  unfold bayAtSource
  split
  · split
    · exact sourceBayChanged_moves h _ _ _ _
    · exact h
  · exact h

theorem bayAtDest_moves (h : Moves cmd s u) (img : Image) (bay : Nat) : Moves cmd s (bayAtDest u img bay) := by
  unfold bayAtDest
  split
  · exact h
  split
  · split
    · exact destBayChanged_moves h _ _ _ _
    · exact h
  · exact h
  · exact h

theorem followBays_moves (h : Moves cmd s u) (img : Image) : Moves cmd s (followBays u img) := by
  unfold followBays
  split
  · exact h
  rename_i a ha
  have h1 : Moves cmd s { u with moc.active := some ((a.following u img).aimed img) } := by
    refine h.tail (.orders u _ fun k => ?_)
    obtain ⟨k1, k2, k3⟩ := k
    refine ⟨?_, k2, ?_⟩
    · simpa [queueIds, ha, Active.following] using k1
    · rintro b hb
      cases hb
      simpa [Active.following] using k3 a ha
  dsimp only
  split
  · exact h1
  · exact sendTarget_moves h1

theorem orderBayChanged_moves (h : Moves cmd s u) (bay : Nat) : Moves cmd s (orderBayChanged u bay) := by
  unfold orderBayChanged
  split
  · exact followBays_moves (bayAtDest_moves (bayAtSource_moves h _ _ _) _ _) _
  · exact h

/-! ## Hand-ons -/

/-- A hand-on served is a sequence of moves. -/
theorem serveWork_moves (h : Moves cmd s u) (w : Work) : Moves cmd s (serveWork u w) := by
  cases w with
  | orderClaim id t st left => exact orderClaimChanged_moves h _ _ _
  | truckClaim bay => exact bayClaimChanged_moves h _
  | claimRemoved => exact askAgain_moves h
  | slotChanged slot => exact orderSlotChanged_moves h _
  | bayChanged bay => exact orderBayChanged_moves h _
  | staleEnded bay => exact staleEnded_moves h _
  | weighResult r b => exact takeResult_moves h _ _
  | activate => exact activate_moves h
  | decide => exact settleDest_moves h
  | progress => exact progress_moves h
  | phaseChanged => exact resettleSlots_moves h

theorem runWork_moves (k : Nat) : ∀ {u : State}, Moves cmd s u → Moves cmd s (runWork k u) := by
  induction k with
  | zero => exact fun h => h
  | succ k ih =>
    intro u h
    unfold runWork
    split
    · exact h
    · exact ih (serveWork_moves (h.tail (.served u _)) _)

/-- The hand-ons of a command are a sequence of moves. -/
theorem finish_moves (s : State) : Moves false s (State.finish s) := runWork_moves 512 (.refl s)

end

end Sys2Proof.Machine
end

