-- ==== Sys2Proof/Laws/Kept.lean ====
section
/-! SUPPORT. What a sequence of moves leaves as it was: the frame of the hand-ons, and the properties every move keeps. -/

namespace Sys2Proof.Machine

/-! ## The transmit queue -/

/-- An offer to the transmit queue changes nothing but the queue, its line access, TX_DROPPED and the draws. -/
theorem beginAttempt_frame (s : State) :
    s.beginAttempt = { s with
      draws := s.beginAttempt.draws,
      rlc := { s.rlc with access := s.beginAttempt.rlc.access, attempts := s.beginAttempt.rlc.attempts,
                          wire := s.beginAttempt.rlc.wire } } := by
  unfold State.beginAttempt
  split <;> rfl

theorem offer_frame (s : State) (i : TxItem) :
    s.offer i = { s with
      draws := (s.offer i).draws,
      rlc := { s.rlc with queue := (s.offer i).rlc.queue, access := (s.offer i).rlc.access,
                          attempts := (s.offer i).rlc.attempts, wire := (s.offer i).rlc.wire,
                          txDropped := (s.offer i).rlc.txDropped } } := by
  unfold State.offer
  split
  · split <;> rfl
  split
  · rfl
  dsimp only
  split
  · rw [beginAttempt_frame]
  · rfl

theorem offer_length (s : State) (i : TxItem) (h : s.rlc.queue.length ≤ 16) : (s.offer i).rlc.queue.length ≤ 16 := by
  have hb : ∀ t : State, t.beginAttempt.rlc.queue = t.rlc.queue := by
    intro t
    rw [beginAttempt_frame]
  unfold State.offer
  split
  · split <;> exact h
  split
  · exact h
  dsimp only
  split
  · rw [hb]
    simp
    omega
  · simp
    omega

/-! ## The output queue -/

theorem offerEvent_keeps (c : Cpt) (stamp : Nat) (e : Event) :
    offerEvent c stamp e = { c with out := (offerEvent c stamp e).out, lost := (offerEvent c stamp e).lost,
                                    dropped := (offerEvent c stamp e).dropped }
      ∧ responses (offerEvent c stamp e) = responses c ∧ streams (offerEvent c stamp e) = streams c := by
  unfold offerEvent
  dsimp only
  repeat' split
  all_goals simp [pushOut, dropEvent, responses, streams, isStream, responseOf]

theorem placeOut_keeps (p : OutBody → Bool) (c : Cpt) (stamp : Nat) (b : OutBody) (hp : p b = true)
    (hr : ∀ x, p x = true → isResponse x = false ∧ isStream x = false) :
    placeOut p c stamp b = { c with out := (placeOut p c stamp b).out }
      ∧ responses (placeOut p c stamp b) = responses c ∧ streams (placeOut p c stamp b) = streams c := by
  obtain ⟨hb, hs⟩ := hr b hp
  have none_of : ∀ x, isResponse x = false → responseOf x = none := by
    intro x hx
    cases x <;> simp_all [isResponse, responseOf]
  unfold placeOut
  split
  · refine ⟨rfl, ?_, ?_⟩
    · unfold responses
      dsimp only
      induction c.out with
      | nil => rfl
      | cons r rs ih =>
        rw [List.map_cons, List.filterMap_cons, List.filterMap_cons, ih]
        cases hpr : p r.body
        · simp
        · simp [none_of _ hb, none_of _ (hr _ hpr).1]
    · unfold streams
      dsimp only
      induction c.out with
      | nil => rfl
      | cons r rs ih =>
        rw [List.map_cons, List.map_cons, List.map_cons, List.filter_cons, List.filter_cons, ih]
        cases hpr : p r.body
        · simp
        · simp [hs, (hr _ hpr).2]
  · refine ⟨rfl, ?_, ?_⟩
    · simp [responses, pushOut, none_of _ hb]
    · simp [streams, pushOut, hs]

theorem permit_body (x : OutBody) (h : isPermit x = true) : isResponse x = false ∧ isStream x = false := by
  cases x <;> simp_all [isPermit, isResponse, isStream]

theorem target_body (x : OutBody) (h : isTarget x = true) : isResponse x = false ∧ isStream x = false := by
  cases x <;> simp_all [isTarget, isResponse, isStream]

/-! ## The permit computation -/

/-- A computation changes nothing but the permit record and the waiting events and PERMITs. -/
theorem compute_frame (s : State) :
    s.compute = { s with
      epu := s.compute.epu,
      cpt := { s.cpt with out := s.compute.cpt.out, lost := s.compute.cpt.lost, dropped := s.compute.cpt.dropped } }
      ∧ responses s.compute.cpt = responses s.cpt ∧ streams s.compute.cpt = streams s.cpt := by
  have emits : ∀ (l : List Nat) (t : State),
      l.foldl (fun t n => if s.epu.clash.contains n then t else t.emit (.positionClash n)) t
        = { t with cpt := { t.cpt with
              out := (l.foldl (fun t n => if s.epu.clash.contains n then t else t.emit (.positionClash n)) t).cpt.out,
              lost := (l.foldl (fun t n => if s.epu.clash.contains n then t else t.emit (.positionClash n)) t).cpt.lost,
              dropped :=
                (l.foldl (fun t n => if s.epu.clash.contains n then t else t.emit (.positionClash n)) t).cpt.dropped } }
        ∧ responses (l.foldl (fun t n => if s.epu.clash.contains n then t else t.emit (.positionClash n)) t).cpt
            = responses t.cpt
        ∧ streams (l.foldl (fun t n => if s.epu.clash.contains n then t else t.emit (.positionClash n)) t).cpt
            = streams t.cpt := by
    intro l
    induction l with
    | nil => exact fun t => ⟨rfl, rfl, rfl⟩
    | cons n l ih =>
      intro t
      rw [List.foldl_cons]
      split
      · exact ih t
      · obtain ⟨h1, h2, h3⟩ := ih (t.emit (.positionClash n))
        obtain ⟨e1, e2, e3⟩ := offerEvent_keeps t.cpt t.stamp (.positionClash n)
        refine ⟨?_, h2.trans e2, h3.trans e3⟩
        rw [h1]
        unfold State.emit
        dsimp only
        rw [e1]
  have base : ∀ t : State, (∃ c : Cpt, t = { s with cpt := c } ∧
      c = { s.cpt with out := c.out, lost := c.lost, dropped := c.dropped } ∧ responses c = responses s.cpt
        ∧ streams c = streams s.cpt) → ∀ e : Epu,
      (State.emitRecord { t with epu := e }) = { s with
        epu := (State.emitRecord { t with epu := e }).epu,
        cpt := { s.cpt with out := (State.emitRecord { t with epu := e }).cpt.out,
                            lost := (State.emitRecord { t with epu := e }).cpt.lost,
                            dropped := (State.emitRecord { t with epu := e }).cpt.dropped } }
        ∧ responses (State.emitRecord { t with epu := e }).cpt = responses s.cpt
        ∧ streams (State.emitRecord { t with epu := e }).cpt = streams s.cpt := by
    rintro t ⟨c, rfl, hc, h2, h3⟩ e
    unfold State.emitRecord
    split
    · refine ⟨?_, h2, h3⟩
      dsimp only
      rw [← hc]
    · unfold State.emitPermit
      dsimp only
      obtain ⟨p1, p2, p3⟩ := placeOut_keeps isPermit c (State.stamp { s with cpt := c, epu := { e with
        lastEmitted := some e.record.permits, lastEmitAt := s.now } }) (.permit s.rlc.nodeState e.record) rfl
        permit_body
      refine ⟨?_, p2.trans h2, p3.trans h3⟩
      rw [p1, hc]
  unfold State.compute
  split
  · exact ⟨rfl, rfl, rfl⟩
  · dsimp only
    apply base
    split
    · exact ⟨s.cpt, rfl, rfl, rfl, rfl⟩
    · obtain ⟨h1, h2, h3⟩ := emits (clashing s) s
      unfold State.reportClashes
      exact ⟨_, h1, rfl, h2, h3⟩

/-! ## The frame of the hand-ons -/

theorem HandOnFrame.refl (s : State) : HandOnFrame s s :=
  ⟨rfl, rfl, rfl, rfl, rfl, rfl, rfl, rfl, .inl rfl, rfl, rfl, rfl⟩

theorem HandOnFrame.trans {s t u : State} (h : HandOnFrame s t) (k : HandOnFrame t u) : HandOnFrame s u := by
  obtain ⟨h1, h2, h3, h4, h5, h6, h7, h8, h9, h10, h11, h12⟩ := h
  obtain ⟨k1, k2, k3, k4, k5, k6, k7, k8, k9, k10, k11, k12⟩ := k
  refine ⟨k1.trans h1, k2.trans h2, k3.trans h3, k4.trans h4, k5.trans h5, k6.trans h6, ?_, ?_, ?_, ?_,
    k11.trans h11, k12.trans h12⟩
  · rw [k7, h7]
  · rw [k8, h8]
  · rcases k9 with k | ⟨k, ss, hs, ho⟩
    · rcases h9 with h | ⟨h, r⟩
      · exact .inl (k.trans h)
      · exact .inr ⟨k.trans h, r⟩
    · rcases h9 with h | ⟨h, r⟩
      · exact .inr ⟨k, ss, h ▸ hs, ho⟩
      · exact .inr ⟨k, r⟩
  · rw [k10, h10]

/-- A move of a hand-on keeps its frame. -/
theorem Move.frame {s t : State} (h : Move false s t) : HandOnFrame s t := by
  cases h with
  | emit =>
    rename_i e
    obtain ⟨h1, h2, h3⟩ := offerEvent_keeps s.cpt s.stamp e
    exact ⟨rfl, rfl, rfl, rfl, rfl, rfl, rfl, rfl, .inl rfl, h1, h2, h3⟩
  | target =>
    rename_i o p x y z
    obtain ⟨h1, h2, h3⟩ := placeOut_keeps isTarget s.cpt s.stamp (.target o p x y z) rfl target_body
    unfold State.emitTarget
    generalize placeOut isTarget s.cpt s.stamp (.target o p x y z) = c at h1 h2 h3
    refine ⟨rfl, rfl, rfl, rfl, rfl, rfl, rfl, rfl, .inl rfl, ?_, h2, h3⟩
    show c = { s.cpt with out := c.out, lost := c.lost, dropped := c.dropped }
    rw [h1]
  | compute =>
    obtain ⟨h1, h2, h3⟩ := compute_frame s
    rw [h1] at h2 h3 ⊢
    exact ⟨rfl, rfl, rfl, rfl, rfl, rfl, rfl, rfl, .inl rfl, rfl, h2, h3⟩
  | offer => rw [offer_frame]; exact ⟨rfl, rfl, rfl, rfl, rfl, rfl, rfl, rfl, .inl rfl, rfl, rfl, rfl⟩
  | changeWindow =>
    unfold State.openChangeWindow
    rw [offer_frame]
    exact ⟨rfl, rfl, rfl, rfl, rfl, rfl, rfl, rfl, .inl rfl, rfl, rfl, rfl⟩
  | closed => rename_i ss h ho; exact ⟨rfl, rfl, rfl, rfl, rfl, rfl, rfl, rfl, .inr ⟨rfl, ss, ho, h⟩, rfl, rfl, rfl⟩
  | _ => exact ⟨rfl, rfl, rfl, rfl, rfl, rfl, rfl, rfl, .inl rfl, rfl, rfl, rfl⟩

/-- A sequence of moves of hand-ons keeps their frame. -/
theorem Moves.frame {s t : State} (h : Moves false s t) : HandOnFrame s t := by
  induction h with
  | refl => exact .refl _
  | tail _ m ih => exact ih.trans m.frame

/-- The hand-ons leave the record of a bay without a pending request as it is, and make no request. -/
theorem Move.noRequest {s t : State} (h : Move false s t) (bay : Nat) (hq : s.tbu.requests.get bay = none) :
    t.tbu.requests.get bay = none ∧ t.tbu.trucks.get bay = s.tbu.trucks.get bay := by
  cases h with
  | compute => rw [(compute_frame s).1]; exact ⟨hq, rfl⟩
  | offer => rw [offer_frame]; exact ⟨hq, rfl⟩
  | changeWindow => unfold State.openChangeWindow; rw [offer_frame]; exact ⟨hq, rfl⟩
  | truck =>
    rename_i b t _ _ h
    refine ⟨hq, ?_⟩
    have hb : (s.tbu.requests.get b).isSome = true := by simpa using h
    have hne : s.tbu.requests.get b ≠ s.tbu.requests.get bay := by
      rw [hq]; intro e; rw [e] at hb; cases hb
    exact perBay_get_set_ne _ _ hne
  | request =>
    rename_i b q h
    refine ⟨?_, rfl⟩
    rcases perBay_get_set s.tbu.requests b bay q with ⟨e, hk⟩ | ⟨e, _⟩
    · dsimp only
      rw [e]
      rcases hk with rfl | hk
      · cases q with
        | none => rfl
        | some q => simp [hq] at h
      · cases q with
        | none => rfl
        | some q => simp [hk, hq] at h
    · exact e.trans hq
  | _ => exact ⟨hq, rfl⟩

theorem Moves.noRequest {s t : State} (h : Moves false s t) (bay : Nat) (hq : s.tbu.requests.get bay = none) :
    t.tbu.requests.get bay = none ∧ t.tbu.trucks.get bay = s.tbu.trucks.get bay := by
  induction h with
  | refl => exact ⟨hq, rfl⟩
  | tail _ m ih =>
    obtain ⟨i1, i2⟩ := ih
    obtain ⟨m1, m2⟩ := m.noRequest bay i1
    exact ⟨m1, m2.trans i2⟩

/-- Serving the hand-ons keeps their frame. -/
theorem finish_frame (s : State) : HandOnFrame s (State.finish s) := (finish_moves s).frame

end Sys2Proof.Machine
end

