-- ==== Sys2Proof/WellFormed.lean ====
section
/-! DEFINITION. What the outside can deliver: a command is well formed when every field it carries fits the bytes, pins
or words it comes in (10.2, 10.3, R126). The model gives every command a meaning, well formed or not; what R5, R199 and
the rules of the blocks reject they reject in exec. -/

namespace Sys2Proof

open Machine

/-- A runway frame passes R5 and R219. -/
def rxOk (n serial : Nat) (b : FrameBody) : Bool := Codec.frameOk { sender := n, serial := serial, body := b }

/-- A peer's crane number. -/
def numberOk (n : Nat) : Bool := decide (1 ≤ n ∧ n ≤ 8)

/-- A bay's number. -/
def bayOk (bay : Nat) : Bool := decide (1 ≤ bay ∧ bay ≤ 4)

/-- A request fits its payload: a CONFIGURE value is a signed 32-bit number (R214). The layouts of the other payloads
are not tabled; their arguments are judged by the rules that serve them. -/
def requestOk (r : Request) : Bool :=
  match r with
  | .configure es => es.all fun e => Codec.signedFits 32 e.value
  | _ => true

/-- A frame that is no usable POSITION frame: with a correct CRC its kind is not 32, or it is a POSITION frame to be
discarded, and the request that its payload spells, if any, is of that kind. -/
def cpFrameOk (f : CpFrame) : Bool :=
  match Codec.openPort f.bytes, f.request with
  | none, none => true
  | none, some _ => false
  | some h, none => h.kind != 32 || !Codec.usablePosition h
  | some h, some r => h.kind == Codec.reqCode (reqKind r) && requestOk r

/-- A POSITION frame, unless its CRC is wrong. -/
def positionOk (bytes : List Byte) : Bool :=
  match Codec.openPort bytes with
  | none => true
  | some h => h.kind == 32

/-- The command can be delivered as it stands. -/
def wellFormed (i : Instr) : Bool :=
  match i with
  | .runwayFrameBad bytes => (Codec.decode bytes).isNone
  | .rxJoin n serial pattern x => rxOk n serial (.join pattern x)
  | .rxWelcome n serial pattern joiner => rxOk n serial (.welcome pattern joiner)
  | .rxBeacon n serial b => rxOk n serial (.beacon b)
  | .rxProfile n serial p => rxOk n serial (.profile p)
  | .rxClaim n serial t prio => rxOk n serial (.claim t prio)
  | .rxRelease n serial t => rxOk n serial (.release t)
  | .rxNotice n serial k => rxOk n serial (.notice k)
  | .rxTruckState n serial bay version c => rxOk n serial (.truckState bay version c)
  | .peerStale n => numberOk n
  | .peerLost n => numberOk n
  | .requestTimerExpiry bay => bayOk bay
  | .loadCellSample raw _ => Codec.signedFits 24 raw
  | .cpFrameReceived f => cpFrameOk f
  | .positionSample bytes => positionOk bytes
  | .powerOn => true
  | .resetPinAssert => true
  | .resetRelease _ => true
  | .lineBusy => true
  | .lineIdle => true
  | .txWaitExpiry => true
  | .txBitMismatch => true
  | .txFrameEnd => true
  | .beaconTimerExpiry => true
  | .profileTimerExpiry => true
  | .profileDelayExpiry => true
  | .welcomeDelayExpiry => true
  | .joinRepeatExpiry => true
  | .joinTimerExpiry => true
  | .resumeTimerExpiry => true
  | .lineTxFail => true
  | .settleTimerExpiry _ => true
  | .refreshTimerExpiry => true
  | .sessionTimeout => true
  | .captureTimerExpiry => true
  | .loadCellLost => true
  | .positionStale => true
  | .orderWaiting => true
  | .loadCellBadWord => true
  | .unknownRequestTaken => true
  | .configure => true
  | .start => true
  | .restart _ => true
  | .park => true
  | .unpark => true
  | .submitOrder => true
  | .cancelOrder => true
  | .redirect => true
  | .truckArrive => true
  | .truckReady => true
  | .truckHold => true
  | .truckDepart => true
  | .mapLoad => true
  | .slotBlock => true
  | .slotUnblock => true
  | .claimForceClear => true
  | .weighVerifyZero => true
  | .weighVerifySpan => true
  | .readStatus => true
  | .readSlot => true
  | .readSlots => true
  | .readPeer => true
  | .readTruck => true
  | .readOrder => true
  | .slotStreamRecord => true
  | .outputRecordSent => true

end Sys2Proof
end

