-- ==== Sys2Proof/Laws/PerInstr.lean ====
section
/-! SUPPORT. Statements about every command, one lemma for each constructor: a well-formed command carries values within
the bounds of the bytes, pins and words it comes in (10.2, 10.3, R126); a command that carries nothing, or only pins, is
always well formed. -/

namespace Sys2Proof.Laws

open Machine

/-- The sender and the serial of a received frame within their bounds (1.3). -/
def Carries.Sender (n serial : Nat) : Prop := 1 ≤ n ∧ n ≤ 8 ∧ serial < 281474976710656

theorem Carries.sender {n serial : Nat} {b : FrameBody} (h : rxOk n serial b = true) : Carries.Sender n serial := by
  simp only [rxOk, Codec.frameOk, Codec.fitsIn, Bool.and_eq_true, decide_eq_true_eq] at h
  obtain ⟨⟨⟨⟨h1, h2⟩, h3⟩, _⟩, _⟩ := h
  exact ⟨h1, h2, by simpa using h3⟩

/-- No request kind has POSITION's code (10.3). -/
theorem Carries.reqCode_ne (k : ReqKind) : Codec.reqCode k ≠ 32 := by cases k <;> decide

/-- What a well-formed command carries. -/
def Carries.Bounds (i : Instr) : Prop :=
  match i with
  | .runwayFrameBad bytes => Codec.decode bytes = none
  | .rxJoin n serial _ _ => Carries.Sender n serial
  | .rxWelcome n serial _ _ => Carries.Sender n serial
  | .rxBeacon n serial _ => Carries.Sender n serial
  | .rxProfile n serial _ => Carries.Sender n serial
  | .rxClaim n serial _ _ => Carries.Sender n serial
  | .rxRelease n serial _ => Carries.Sender n serial
  | .rxNotice n serial _ => Carries.Sender n serial
  | .rxTruckState n serial _ _ _ => Carries.Sender n serial
  | .peerStale n => 1 ≤ n ∧ n ≤ 8
  | .peerLost n => 1 ≤ n ∧ n ≤ 8
  | .requestTimerExpiry bay => 1 ≤ bay ∧ bay ≤ 4
  | .loadCellSample raw _ => -8388608 ≤ raw ∧ raw ≤ 8388607
  | .cpFrameReceived f => ∀ h, Codec.openPort f.bytes = some h → h.kind ≠ 32 ∨ Codec.usablePosition h = false
  | .positionSample bytes => ∀ h, Codec.openPort bytes = some h → h.kind = 32
  | i => wellFormed i = true

/-- A well-formed command's values lie within their bounds. -/
def Carries.Statement (i : Instr) : Prop := wellFormed i = true → Carries.Bounds i

theorem Carries.powerOn : Carries.Statement (.powerOn) := fun h => h
theorem Carries.resetPinAssert : Carries.Statement (.resetPinAssert) := fun h => h
theorem Carries.resetRelease (straps : Straps) : Carries.Statement (.resetRelease straps) := fun h => h
theorem Carries.lineBusy : Carries.Statement (.lineBusy) := fun h => h
theorem Carries.lineIdle : Carries.Statement (.lineIdle) := fun h => h
theorem Carries.txWaitExpiry : Carries.Statement (.txWaitExpiry) := fun h => h
theorem Carries.txBitMismatch : Carries.Statement (.txBitMismatch) := fun h => h
theorem Carries.txFrameEnd : Carries.Statement (.txFrameEnd) := fun h => h
theorem Carries.runwayFrameBad (bytes : List Byte) : Carries.Statement (.runwayFrameBad bytes) :=
  fun h => by simpa [Carries.Bounds, wellFormed] using h
theorem Carries.rxJoin (n serial pattern : Nat) (x : Int) : Carries.Statement (.rxJoin n serial pattern x) :=
  fun h => Carries.sender h
theorem Carries.rxWelcome (n serial pattern joiner : Nat) : Carries.Statement (.rxWelcome n serial pattern joiner) :=
  fun h => Carries.sender h
theorem Carries.rxBeacon (n serial : Nat) (b : Beacon) : Carries.Statement (.rxBeacon n serial b) :=
  fun h => Carries.sender h
theorem Carries.rxProfile (n serial : Nat) (p : Profile) : Carries.Statement (.rxProfile n serial p) :=
  fun h => Carries.sender h
theorem Carries.rxClaim (n serial : Nat) (target : Target) (prio : Nat) : Carries.Statement (.rxClaim n serial target prio) :=
  fun h => Carries.sender h
theorem Carries.rxRelease (n serial : Nat) (target : Target) : Carries.Statement (.rxRelease n serial target) :=
  fun h => Carries.sender h
theorem Carries.rxNotice (n serial : Nat) (notice : Notice) : Carries.Statement (.rxNotice n serial notice) :=
  fun h => Carries.sender h
theorem Carries.rxTruckState (n serial bay version : Nat) (content : TruckContent) : Carries.Statement (.rxTruckState n serial bay version content) :=
  fun h => Carries.sender h
theorem Carries.beaconTimerExpiry : Carries.Statement (.beaconTimerExpiry) := fun h => h
theorem Carries.profileTimerExpiry : Carries.Statement (.profileTimerExpiry) := fun h => h
theorem Carries.profileDelayExpiry : Carries.Statement (.profileDelayExpiry) := fun h => h
theorem Carries.welcomeDelayExpiry : Carries.Statement (.welcomeDelayExpiry) := fun h => h
theorem Carries.joinRepeatExpiry : Carries.Statement (.joinRepeatExpiry) := fun h => h
theorem Carries.joinTimerExpiry : Carries.Statement (.joinTimerExpiry) := fun h => h
theorem Carries.resumeTimerExpiry : Carries.Statement (.resumeTimerExpiry) := fun h => h
theorem Carries.lineTxFail : Carries.Statement (.lineTxFail) := fun h => h
theorem Carries.peerStale (n : Nat) : Carries.Statement (.peerStale n) :=
  fun h => by simpa [Carries.Bounds, wellFormed, numberOk] using h
theorem Carries.peerLost (n : Nat) : Carries.Statement (.peerLost n) :=
  fun h => by simpa [Carries.Bounds, wellFormed, numberOk] using h
theorem Carries.settleTimerExpiry (target : Target) : Carries.Statement (.settleTimerExpiry target) :=
  fun h => h
theorem Carries.refreshTimerExpiry : Carries.Statement (.refreshTimerExpiry) := fun h => h
theorem Carries.requestTimerExpiry (bay : Nat) : Carries.Statement (.requestTimerExpiry bay) :=
  fun h => by simpa [Carries.Bounds, wellFormed, bayOk] using h
theorem Carries.sessionTimeout : Carries.Statement (.sessionTimeout) := fun h => h
theorem Carries.captureTimerExpiry : Carries.Statement (.captureTimerExpiry) := fun h => h
theorem Carries.loadCellLost : Carries.Statement (.loadCellLost) := fun h => h
theorem Carries.positionStale : Carries.Statement (.positionStale) := fun h => h
theorem Carries.orderWaiting : Carries.Statement (.orderWaiting) := fun h => h
theorem Carries.loadCellSample (raw : Int) (saturated : Bool) : Carries.Statement (.loadCellSample raw saturated) :=
  fun h => by
    simp [wellFormed, Codec.signedFits] at h
    exact ⟨by omega, by omega⟩
theorem Carries.loadCellBadWord : Carries.Statement (.loadCellBadWord) := fun h => h
theorem Carries.cpFrameReceived (f : CpFrame) : Carries.Statement (.cpFrameReceived f) := fun h q hq => by
  simp only [wellFormed, cpFrameOk, hq] at h
  cases hr : f.request with
  | none => simpa [hr] using h
  | some r =>
    simp only [hr, Bool.and_eq_true, beq_iff_eq] at h
    exact .inl (h.1 ▸ Carries.reqCode_ne _)
theorem Carries.positionSample (bytes : List Byte) : Carries.Statement (.positionSample bytes) := fun h q hq => by
  simpa [wellFormed, positionOk, hq] using h
theorem Carries.unknownRequestTaken : Carries.Statement (.unknownRequestTaken) := fun h => h
theorem Carries.configure : Carries.Statement (.configure) := fun h => h
theorem Carries.start : Carries.Statement (.start) := fun h => h
theorem Carries.restart (straps : Straps) : Carries.Statement (.restart straps) := fun h => h
theorem Carries.park : Carries.Statement (.park) := fun h => h
theorem Carries.unpark : Carries.Statement (.unpark) := fun h => h
theorem Carries.submitOrder : Carries.Statement (.submitOrder) := fun h => h
theorem Carries.cancelOrder : Carries.Statement (.cancelOrder) := fun h => h
theorem Carries.redirect : Carries.Statement (.redirect) := fun h => h
theorem Carries.truckArrive : Carries.Statement (.truckArrive) := fun h => h
theorem Carries.truckReady : Carries.Statement (.truckReady) := fun h => h
theorem Carries.truckHold : Carries.Statement (.truckHold) := fun h => h
theorem Carries.truckDepart : Carries.Statement (.truckDepart) := fun h => h
theorem Carries.mapLoad : Carries.Statement (.mapLoad) := fun h => h
theorem Carries.slotBlock : Carries.Statement (.slotBlock) := fun h => h
theorem Carries.slotUnblock : Carries.Statement (.slotUnblock) := fun h => h
theorem Carries.claimForceClear : Carries.Statement (.claimForceClear) := fun h => h
theorem Carries.weighVerifyZero : Carries.Statement (.weighVerifyZero) := fun h => h
theorem Carries.weighVerifySpan : Carries.Statement (.weighVerifySpan) := fun h => h
theorem Carries.readStatus : Carries.Statement (.readStatus) := fun h => h
theorem Carries.readSlot : Carries.Statement (.readSlot) := fun h => h
theorem Carries.readSlots : Carries.Statement (.readSlots) := fun h => h
theorem Carries.readPeer : Carries.Statement (.readPeer) := fun h => h
theorem Carries.readTruck : Carries.Statement (.readTruck) := fun h => h
theorem Carries.readOrder : Carries.Statement (.readOrder) := fun h => h
theorem Carries.slotStreamRecord : Carries.Statement (.slotStreamRecord) := fun h => h
theorem Carries.outputRecordSent : Carries.Statement (.outputRecordSent) := fun h => h

end Sys2Proof.Laws
end

