-- ==== Sys2Proof/Tests/Slice0.lean ====
section
/-! SUPPORT. The model's own tests: what WellFormed refuses, the worked cases of the spec (each names its section), and for
each statement of Certificates/Slice0/Obligations.lean a state and operands that meet its hypotheses together. -/

namespace Sys2Proof.Tests

open Sys2Proof Sys2Proof.Machine

/- Each kernel evaluation below would else take a thread of its own. -/
set_option Elab.async false

/-! ## Fixtures -/

/-- A complete image under construction: the values of sections 3.10, 5.9 and 6.10 where they give one. -/
def draft : Draft :=
  let a : Draft :=
    [(.runwayLength, 200000), (.spanLength, 30000), (.leftExtent, 6500), (.rightExtent, 6500),
     (.gantryVmax false, 3000), (.gantryVmax true, 2000), (.gantryDec false, 400), (.gantryDec true, 250),
     (.trolleyVmax false, 1500), (.trolleyVmax true, 1000), (.trolleyDec false, 300), (.trolleyDec true, 250),
     (.hoistVmax false, 500), (.hoistVmax true, 300), (.reaction, 300), (.creep, 100), (.gapPeer, 2000),
     (.gapWall, 1000), (.clearance, 300), (.tongHang, 700), (.zMin, 300), (.zMax, 9000), (.travelHeight, 8000),
     (.unknownLeft, 12000)]
  let b : Draft :=
    [(.unknownRight, 12000), (.unknownVmax, 4000), (.unknownDec, 50), (.unknownReaction, 500), (.zoneCount, 2),
     (.zoneKind 1, 0), (.zoneXStart 1, 100000), (.zoneXEnd 1, 110000), (.zoneKind 2, 1), (.zoneXStart 2, 120000),
     (.zoneXEnd 2, 136000), (.zoneBay 2, 2), (.rowCount, 5), (.saddleHeight, 400), (.upperSeat, 900),
     (.dmax, 2200), (.saddleMax, 2000), (.columnHalf, 1000), (.tierTolerance, 150), (.upperOversize, 100),
     (.widthTolerance, 100), (.upperRatio, 110), (.upperPenalty, 40), (.rowCentre 1, 14000)]
  let c : Draft :=
    [(.rowHalf 1, 1500), (.lowerCount 1, 4), (.rowCentre 2, 22000), (.rowHalf 2, 1500), (.lowerCount 2, 4),
     (.rowCentre 3, 30000), (.rowHalf 3, 1500), (.lowerCount 3, 4), (.rowCentre 4, 34000), (.rowHalf 4, 1500),
     (.lowerCount 4, 4), (.rowCentre 5, 38000), (.rowHalf 5, 1500), (.lowerCount 5, 6), (.scaleSpan, 1500),
     (.calibratedZero, 209800), (.zeroWindow, 2000), (.tare, 2850), (.division, 20), (.ratedCapacity, 40000),
     (.toleranceKg, 100), (.tolerancePm, 10)]
  let lanes (r : Nat) : Draft := [(.laneY r 1, 5000), (.laneY r 2, 8000), (.laneY r 3, 11000), (.laneY r 4, 14000)]
  let wide : Draft := [(.laneY 5 5, 17000), (.laneY 5 6, 20000)]
  List.flatten [a, b, c, lanes 1, lanes 2, lanes 3, lanes 4, lanes 5, wide]

/-- A row of the store with lanes every 3,000 mm from 5,000. -/
def rowOf (centre : Int) (lanes : List Int) : Row := { centre := centre, half := 1500, lanes := lanes }

/-- The image that START takes from the draft (test_image_check). -/
def demo : Image :=
  { runway := 200000, span := 30000, left := 6500, right := 6500, gantryVmax := ⟨3000, 2000⟩, gantryDec := ⟨400, 250⟩,
    trolleyVmax := ⟨1500, 1000⟩, trolleyDec := ⟨300, 250⟩, hoistVmax := ⟨500, 300⟩, reaction := 300, creep := 100,
    gapPeer := 2000, gapWall := 1000, clearance := 300, tongHang := 700, zMin := 300, zMax := 9000, travelHeight := 8000,
    unknown := ⟨12000, 12000, 4000, 50, 4000, 50, 500, 0⟩,
    zones := [⟨1, .exclusive, 100000, 110000, 0, 0, 0, 0⟩, ⟨2, .truckBay, 120000, 136000, 0, 0, 0, 2⟩],
    rows := [rowOf 14000 [5000, 8000, 11000, 14000], rowOf 22000 [5000, 8000, 11000, 14000],
             rowOf 30000 [5000, 8000, 11000, 14000], rowOf 34000 [5000, 8000, 11000, 14000],
             rowOf 38000 [5000, 8000, 11000, 14000, 17000, 20000]],
    saddleHeight := 400, upperSeat := 900, dmax := 2200, saddleMax := 2000, columnHalf := 1000, tierTolerance := 150,
    upperOversize := 100, widthTolerance := 100, upperRatio := 110, upperPenalty := 40, scaleSpan := 1500,
    calibratedZero := 209800, zeroWindow := 2000, tare := 2850, division := 20, ratedCapacity := 40000,
    toleranceKg := 100, tolerancePm := 10 }

/-- An own sample at rest. -/
def still (x y z : Int) (g : Grip) : Sample :=
  { x := x, y := y, z := z, vx := 0, vy := 0, vz := 0, az := 0, grip := g, seq := 100 }

/-- Crane 2 RUNNING with the image, a fresh sample, READY and EMPTY, at 5,000 ms. -/
def up : State :=
  { State.reset with
    now := 5000,
    rlc := { Rlc.fresh .powerOn with
      nodeState := .running, straps := some ⟨2, false⟩, craneNo := some 2, pattern := some 7,
      txSince := 4990, beaconDue := some 5050, profileDue := some 8000 },
    smu := { slots := formMap demo, tracking := [] },
    wgu := { Wgu.fresh with base := .ready, zero := 209800, loadClass := .empty },
    cpt := { Cpt.fresh with
      image := some demo, held := some (still 60000 15000 8000 .opened), takenAt := 4980, sampleSeq := some 100 } }

/-- The state of a node out of RESET and without an image. -/
def bare : State :=
  { State.reset with now := 100, rlc := { State.reset.rlc with nodeState := .config, craneNo := some 2 } }

/-- A profile in range. -/
def plainProfile : Profile :=
  { left := 6500, right := 6500, vmaxEmpty := 3000, decEmpty := 400, vmaxLoaded := 2000, decLoaded := 300, reaction := 300,
    creep := 100 }

/-- Peer crane 3 of section 3.10, its BEACON heard `ago` ms before 5,000 with a sample age of 20 ms. -/
def peer3 (ago : Nat) : Peer :=
  { Peer.fresh 3 77 (5000 - ago) with
    nodeState := some .running, pattern := some 9, valid := true, x := 82000, vx := -800, age := 20,
    loadClass := some .loaded, noticeSeq := some 0,
    profile := some plainProfile }

/-- `up` with one peer. -/
def near (p : Peer) : State := { up with ptb := { up.ptb with peers := [p] } }

/-- `s` with one slot's record replaced. -/
def withSlot (s : State) (id : Nat) (c : Content) (d w m : Option Nat) : State :=
  let coil : Coil := { id := none, weight := m, diameter := d, width := w }
  { s with smu := putSlot s.smu id { SlotRec.fresh with content := c, coil := coil } }

/-- The state an answer carries, `s` where it carries none. -/
def after (c : Instr) (s : State) : State :=
  match exec c s with
  | .next t => t
  | _ => s

/-- An answer is a next state. -/
def isNext (o : Host.Outcome State Fault Refusal) : Bool :=
  match o with
  | .next _ => true
  | _ => false

theorem next_of_isNext {o : Host.Outcome State Fault Refusal} (h : isNext o = true) : ∃ t, o = .next t := by
  cases o with
  | next t => exact ⟨t, rfl⟩
  | fault r => simp [isNext] at h
  | refused r => simp [isNext] at h

theorem exec_after {c : Instr} {s : State} (h : isNext (exec c s) = true) : exec c s = .next (after c s) := by
  unfold after
  obtain ⟨t, ht⟩ := next_of_isNext h
  rw [ht]

theorem step_after {c : Instr} {s : State} (h : isNext (exec c { s with pending := [] }) = true) :
    step { s with pending := [c] } = .next (after c { s with pending := [] }) := exec_after h

/-- `s` with a request at the head of its buffer. -/
def asks (s : State) (r : Request) : State := { s with cpt := { s.cpt with reqBuf := [.request ⟨5, []⟩ r] } }

/-- A request that stands at the head, with no last request remembered, is taken. -/
theorem takesNow_of_head {s : State} {tag : ReqTag} {r : Request}
    (h : s.rlc.nodeState ≠ .reset ∧ s.cpt.reqBuf.head? = some (.request tag r) ∧ waitingOut isResponse s.cpt.out < 8)
    (hn : s.cpt.lastReq = none) : TakesNow s tag r :=
  ⟨h, .inr fun a ha => by rw [hn] at ha; cases ha⟩

/-! ## WellFormed refuses -/

/-- A beacon that fits its bytes, stated by a node with nothing claimed. -/
def plainBeacon : Beacon :=
  { state := .running, valid := true, x := 82000, vx := -800, age := 20, loadClass := .loaded, noticeSeq := 57,
    claims := [] }

/-- A POSITION frame that fits its bytes. -/
def posFrame (seq : Nat) (x y z : Int) (g : Nat) : PositionFrame :=
  { seq := seq, x := x, y := y, z := z, vx := 0, vy := 0, vz := 0, az := 0, gripCode := g }

/-- Its bytes. -/
def posBytes (seq : Nat) (x y z : Int) (g : Nat) : List Byte := Codec.encodePosition (posFrame seq x y z g)

/-- A PARK request of sequence 5, by the tables of 10.3; the CRC was computed from R218 outside the model. -/
def parkBytes : List Byte := [4, 0, 0, 0, 5, 200, 175]

/-- A frame of kind 99 with two payload bytes, likewise. -/
def oddBytes : List Byte := [99, 0, 2, 0, 5, 1, 2, 38, 86]

theorem test_wellFormed_refuses_frames :
    wellFormed (.runwayFrameBad (Codec.encode { sender := 3, serial := 77, body := .join 9 100 })) = false
      ∧ wellFormed (.rxJoin 9 77 9 100) = false ∧ wellFormed (.rxWelcome 3 77 65536 2) = false
      ∧ wellFormed (.rxBeacon 3 77 { plainBeacon with vx := 32768 }) = false
      ∧ wellFormed (.rxProfile 0 77 plainProfile) = false ∧ wellFormed (.rxClaim 3 77 (.zone 65536) 8) = false
      ∧ wellFormed (.rxRelease 3 (2 ^ 48) (.zone 2)) = false
      ∧ wellFormed (.rxNotice 3 77 { seq := 1, slot := 24, kind := .setBlock, coil := { id := some 7 } }) = false
      ∧ wellFormed (.rxTruckState 3 77 256 1 .noTruck) = false := by decide +kernel

theorem test_wellFormed_refuses_the_rest :
    wellFormed (.peerStale 9) = false ∧ wellFormed (.peerLost 0) = false ∧ wellFormed (.requestTimerExpiry 5) = false
      ∧ wellFormed (.loadCellSample 8388608 false) = false
      ∧ wellFormed (.cpFrameReceived { bytes := posBytes 1 0 0 0 0, request := none }) = false
      ∧ wellFormed (.cpFrameReceived { bytes := parkBytes, request := some .start }) = false
      ∧ wellFormed (.cpFrameReceived { bytes := parkBytes.dropLast, request := some .park }) = false
      ∧ wellFormed (.cpFrameReceived
          { bytes := Codec.portFrame 1 5 [], request := some (.configure [⟨some .zMax, 2147483648⟩]) }) = false
      ∧ wellFormed (.positionSample parkBytes) = false := by decide +kernel

/-! ## Worked cases of the spec -/

/-- The frame of section 10.5: crane 3's beacon with zone 8 HELD at version 18 and slot 142 ASKING; the serial is 2005. -/
def beaconFrame : Frame :=
  { sender := 3, serial := 2005,
    body := .beacon { plainBeacon with
      claims := [{ target := .zone 8, held := true, prio := 5, version := some 18 },
                 { target := .slot 142, held := false, prio := 5, version := none }] } }

/-- Its 35 bytes, laid out by the tables of section 10.2; the CRC was computed from R218 outside the model. -/
def beaconBytes : List Byte :=
  [3, 24, 3, 0, 0, 0, 0, 7, 213, 3, 1, 0, 1, 64, 80, 0xFC, 0xE0, 0, 20, 1, 0, 57, 2,
   6, 5, 0, 8, 0, 18, 1, 5, 0, 142, 123, 123]

theorem test_beacon_bytes : Codec.encode beaconFrame = beaconBytes ∧ Codec.decode beaconBytes = some beaconFrame := by
  decide +kernel

/-- A claim count of 3 under the same length is not well formed (section 10.5); its CRC is made correct. -/
theorem test_beacon_short_count : Codec.decode (Codec.withCrc ((beaconBytes.take 33).set 22 3)) = none := by
  decide +kernel

/-- Section 10.5: crane 2's PLACE notice with presence bits 0 and 2 and a payload of 12 bytes. -/
theorem test_notice_bytes :
    Codec.decode [7, 12, 2, 0, 0, 0, 0, 0, 1, 0, 58, 0, 142, 2, 5, 0, 0, 30, 50, 6, 114, 157, 165]
      = some ⟨2, 1, .notice ⟨58, 142, .place, { id := some 7730, diameter := some 1650 }⟩⟩ := by decide +kernel

/-- A CLAIM with target kind 7, which R219 does not judge: read as any CLAIM, and taken into the sender's copy (R40). -/
theorem test_claim_of_other_kind :
    let f : Frame := { sender := 3, serial := 77, body := .claim (.other 7 9) 4 }
    Codec.decode (Codec.withCrc [5, 4, 3, 0, 0, 0, 0, 0, 77, 7, 0, 9, 4]) = some f
      ∧ Codec.encode f = Codec.withCrc [5, 4, 3, 0, 0, 0, 0, 0, 77, 7, 0, 9, 4]
      ∧ (peerAt (after (rxCommand f) (near (peer3 20))).ptb 3).map (·.claims)
          = some [{ target := .other 7 9, held := false, prio := 4, stated := 5000 }] := by decide +kernel

/-- The frames of 10.3, laid out by its tables: a PARK request and a POSITION, whose bytes and CRC are written out. -/
theorem test_port_bytes :
    Codec.openPort parkBytes = some { kind := 4, length := 0, seq := 5, payload := [] }
      ∧ (after (.cpFrameReceived { bytes := parkBytes, request := some .park }) up).cpt.reqBuf = [.request ⟨5, []⟩ .park]
      ∧ Codec.decodePosition
          [32, 0, 23, 0, 0, 0, 101, 0, 0, 234, 96, 0, 0, 58, 152, 0, 0, 31, 64, 0, 0, 0, 0, 0, 0, 255, 254, 2, 168, 150]
          = some { posFrame 101 60000 15000 8000 2 with az := -2 } := by decide +kernel

/-- Section 3.10, a moving loaded peer: growth 200, free distance 5,493, permit 1,564 with cause PEER 3. -/
theorem test_moving_peer :
    let s := { near (peer3 80) with wgu := { up.wgu with loadClass := .loaded } }
    growth demo 5000 (peer3 80) = 200 ∧ freeOf (gantryPlusObstacles s demo) = 5493
      ∧ (computedPermits s demo (obstaclesOf s demo)).gantryPlus = { speed := 1564, cause := .peer 3 } := by
  decide +kernel

/-- Section 3.10, the same peer falls silent: at ages 1,100, 2,546 and 2,547 the permit is 1,202, 22 and 0. -/
theorem test_silent_peer :
    ([1100, 2546, 2547].map fun age =>
      let s := { near (peer3 (age - 20)) with wgu := { up.wgu with loadClass := .loaded } }
      (computedPermits s demo (obstaclesOf s demo)).gantryPlus.speed) = [1202, 22, 0] := by decide +kernel

/-- Section 5.9, slot ids. -/
theorem test_slot_ids :
    slotId 1 false 1 = 1 ∧ slotId 7 false 4 = 142 ∧ slotId 7 true 4 = 154 ∧ slotId 40 true 11 = 920 := by decide

/-- Section 5.9, heights of row 2. -/
def row2 : State :=
  withSlot (withSlot (withSlot (withSlot (withSlot up 24 .occupied (some 1800) none none) 25 .occupied (some 1600) none
    none) 26 .empty none none none) 36 .occupied (some 1500) none none) 37 .empty none none none

theorem test_row_heights :
    columnTops demo row2.smu 2 = [2800, 2800, 3500, 3500] ∧ rowTop demo row2.smu 2 = 3500
      ∧ columnTops demo (withSlot row2 38 .empty none none none).smu 2 = [2800, 2800, 400, 3500]
      ∧ pickTest row2 demo 24 = .buried [36] ∧ pickTest row2 demo 25 = .buried [36] := by decide +kernel

/-- Section 5.9, choosing from an area: slots 71 and 72 cost 27, slot 107 on slots 95 and 96 costs 52. -/
def area : State :=
  let a := [71, 72, 82, 83, 84, 107].foldl (fun s id => withSlot s id .empty none none none) up
  let b := withSlot (withSlot a 95 .occupied (some 1750) (some 1300) (some 21000)) 96 .occupied (some 1800) (some 1250)
    (some 17500)
  { b with cpt := { b.cpt with held := some (still 36750 15000 8000 .closed) },
           ptb := { b.ptb with peers :=
             [{ peer3 0 with nodeState := some .parked, x := 58500, vx := 0 },
              { peer3 0 with n := 7, nodeState := some .parked, x := 16500, vx := 0 }] } }

theorem test_area_choice :
    let w : Wanted := { diameter := some 1700, width := some 1250, weight := some 18400, excluded := [] }
    reachLow area demo = 31500 ∧ reachHigh area demo = 43500
      ∧ areaChoice area demo w 3 5 .any = some 71 ∧ slotCost area demo 71 = 27
      ∧ areaChoice area demo { w with excluded := [71, 72] } 3 5 .any = some 107 ∧ slotCost area demo 107 = 52
      ∧ areaChoice area demo { w with excluded := [71, 72], weight := some 20000 } 3 5 .any = none := by decide +kernel

/-- Section 6.10, one sample converted: gross 30,061, net 26,848. -/
theorem test_sample_converted : grossOf demo 210000 1523400 = 30061 ∧ netOf demo 210000 120 1523400 = 26848 := by
  decide +kernel

/-- Section 6.10, a session settles at 26,860 kg; the tolerances of declared weights 27,000 and 26,500. -/
theorem test_session_weight :
    windowWeight demo (List.replicate 15 { net := 26852, saturated := false } ++ [{ net := 26859, saturated := false }])
        = 26860
      ∧ matchOf demo (some 27000) .stable (some 26860) = .agrees
      ∧ matchOf demo (some 26500) .stable (some 26860) = .mismatch := by decide +kernel

/-- Section 6.10, a capture that averages 210,412: READY inside the zero window 2,000, ZERO_DRIFT outside 500. -/
theorem test_capture_outcomes :
    let c : Capture := { kind := .auto, startedAt := 2000, count := 1200, sum := 1200 * 210412 }
    let s : State := { up with wgu := { up.wgu with zero := 210000, capture := some c, mark := true } }
    let narrow : State := { s with cpt := { s.cpt with image := some { demo with zeroWindow := 500 } } }
    (after .captureTimerExpiry s).wgu.zero = 210412 ∧ (after .captureTimerExpiry s).wgu.base = .ready
      ∧ (after .captureTimerExpiry narrow).wgu.zero = 210000
      ∧ (after .captureTimerExpiry narrow).wgu.base = .locked .zeroDrift := by decide +kernel

/-- Section 7.8: the trailer in bay 2, P2 LOADED with 14,000 kg. -/
def trailer : TruckData :=
  let p (a b c : Nat) (loaded : Bool) : Position :=
    { share1 := a, share2 := b, share3 := c, maxKg := 30000, xOffset := 3000, y := 15000, loaded := loaded,
      coilId := if loaded then some 41 else none, weight := if loaded then some 14000 else none }
  { truckId := 900, allowance := 42000, deckHeight := 1200, limits := [3000, 18000, 24000],
    positions := [p 100 500 400 false, p 0 300 700 true, p 0 100 900 false], plan := [2, 1, 3] }

theorem test_trailer_position :
    firstFeasible trailer 14000 [0, 4200, 9800] 26860 trailer.plan = some 1
      ∧ firstFeasible trailer 14000 [0, 4200, 9800] 30000 trailer.plan = none
      ∧ firstFeasible trailer 14000 [0, 4200, 9800] 28000 trailer.plan = none := by decide +kernel

/-- `up` with that truck READY in bay 2, version 17. -/
def docked : State :=
  let truck : Truck := { version := 17, content := .present true trailer 14000 [0, 4200, 9800] }
  { up with tbu := { up.tbu with trucks := up.tbu.trucks.set 2 truck } }

/-- Section 7.8: the commit makes version 18, 40,860 kg and the loads 2,686, 17,630 and 20,544. -/
theorem test_trailer_commit :
    let t := (trailerPlaceCommit docked 2 1 5501 26860).tbu.trucks.get 2
    let sums : TruckContent → Nat × List Nat := fun c => match c with
      | .present _ _ cumulative loads => (cumulative, loads)
      | .noTruck => (0, [])
    t.version = 18 ∧ sums t.content = (40860, [2686, 17630, 20544]) := by decide +kernel

/-- Section 2.10, notice tracking: crane 6's entry after the notices and beacons of the table. -/
def crane6 (k : Nat ⊕ Nat) : Instr :=
  match k with
  | .inl seq => .rxNotice 6 88 { seq := seq, slot := 24, kind := .foundEmpty, coil := {} }
  | .inr seq => .rxBeacon 6 88 { plainBeacon with noticeSeq := seq }

/-- Crane 6 known and tracked at L = 41. -/
def tracked (last : Option Nat) : State :=
  { near { peer3 0 with n := 6, serial := 88 } with
    smu := { up.smu with tracking := [{ n := 6, serial := 88, last := last }] } }

theorem test_notice_tracking :
    ([(some 41, .inl 42), (some 42, .inl 42), (some 42, .inr 43), (some 42, .inl 44), (some 44, .inl 43),
      (some 44, .inr 49), (some 46, .inl 47), (some 47, .inl 49), (some 49, .inr 0), (none, .inl 1)].map
        fun q => (trackAt (after (crane6 q.2) (tracked q.1)).smu 6).bind (·.last))
      = [some 42, some 42, some 42, some 44, some 44, some 46, some 47, some 49, none, some 1] := by decide +kernel

/-- Section 2.10: MAP_GAP(6, 44, 49) at the beacon with sequence 49, and MAP_RESYNC(6, 0) at the one with 0. -/
theorem test_notice_reports :
    (after (crane6 (.inr 49)) (tracked (some 44))).cpt.out.any (fun r => r.body == .event (.mapGap 6 44 49)) = true
      ∧ (after (crane6 (.inr 0)) (tracked (some 49))).cpt.out.any (fun r => r.body == .event (.mapResync 6 0)) = true := by
  decide +kernel

/-- Section 4.10: crane 4's claim on the same zone at the same priority with the lower serial makes crane 7 yield. -/
theorem test_lower_serial_wins :
    let mine : OwnClaim := OwnClaim.fresh (.zone 1) 3 4960 .order .asking
    let s : State := { near { peer3 0 with n := 4, serial := 50 } with
      serial := 60, clu := { Clu.fresh with claims := [mine] } }
    let u := after (.rxClaim 4 50 (.zone 1) 3) s
    u.clu.claims.map (·.state) = [.waiting] ∧ u.rlc.queue = [.fixed (.release (.zone 1))] := by decide +kernel

/-- Section 9.5: READ_SLOTS walks on past the highest existing id: 900, 901, 910 to 912, 1, 2, 3. -/
theorem test_stream_wraps :
    let ids := [1, 2, 3, 4, 898, 899, 900, 901, 910, 911, 912]
    let s : State := { up with
      smu := { up.smu with slots := ids.map fun id => { id := id, data := SlotRec.fresh } },
      cpt := { up.cpt with stream := some { seq := 5, next := 902, k := 3, n := 8 } } }
    ((after .slotStreamRecord s).cpt.out.map (·.body)).any (fun b => match b with
      | .stream _ k v => k == 3 && v.id == 910
      | _ => false) = true
      ∧ (after .slotStreamRecord s).cpt.stream = some { seq := 5, next := 911, k := 4, n := 8 } := by decide +kernel

/-- Section 9.6: a travel height above z maximum fails START at the travel height; without that, the image is taken. -/
theorem test_image_check :
    imageFail draft = none ∧ buildImage draft = demo ∧ imageFail (draftPut draft .zMax 7500) = some (.travelHeight, .travelHeight) := by
  decide +kernel

/-! ## Witnesses: the step and the limits of the state

For each statement, its hypotheses met together by a state and operands written out; where a statement has several clauses,
each clause's, at the edge of its range where it has one. -/

/-- An order from slot 24 to slot 71 with slot 72 as its alternate. -/
def order (id : Nat) : Order :=
  { id := id, prio := 3, kind := some .relocate, source := .slot 24, dest := .slot 71, alt := some (.slot 72), coil := 5501,
    weight := some 26860, diameter := some 1700, width := some 1250 }

/-- That order active in a phase, its load not lifted, and its targets those of slot 24. -/
def active (p : Phase) : Active :=
  { ord := order 1, phase := p, coil := { id := some 5501, weight := some 26860, diameter := some 1700 }, result := none,
    destUse := none, diverted := none, primaryDropped := false, excluded := [], bayExcluded := false, gripHeight := none,
    lifted := false, contact := none, phaseAt := 4000, srcPlace := some ⟨22000, 5000, 400⟩, destPlace := none,
    targetX := 22000, targetY := 5000, targetZ := 8000, srcClaims := [.slot 24], destClaims := [], transit := [],
    askRefused := false, waitTold := false, gripHighTold := false, usedWeight := none }

/-- The order of section 7.8: its coil of 26,860 kg, weighed, for bay 2. -/
def toBay (p : Phase) : Active :=
  { active p with ord := { order 1 with dest := .bay 2 }, lifted := true, usedWeight := some 26860,
                  result := some ⟨.order 1 (some 5501) (some 26860), .stable, some 26860, 20, .agrees⟩ }

/-- `up` with an active order. -/
def working (a : Active) : State := { up with moc := { up.moc with active := some a } }

/-- An own claim of the order. -/
def claimOn (t : Target) (st : ClaimState) : OwnClaim :=
  { target := t, state := st, prio := 3, askedAt := 4800, holders := [.order] }

/-- An ORDER session whose window holds n entries. -/
def session (n : Nat) : Session :=
  { kind := .order 1 (some 5501) (some 26860), openedAt := 4000, window := List.replicate n ⟨26852, false⟩,
    counting := true, atLiftOff := false }

/-- Every list at its limit, and a refresh that is due. -/
def crowded : State :=
  let out (b : OutBody) (k : Nat) : List OutRecord := List.replicate k { stamp := 4900, body := b }
  let view : SlotView := ⟨1, none, false, 0, 0, 0, 0, none, none, []⟩
  let prof : Peer := { peer3 0 with claims := List.replicate 6 { target := .slot 24, held := false, prio := 0, stated := 0 } }
  { up with
    pending := [.refreshTimerExpiry],
    ptb := { up.ptb with peers := [1, 3, 4, 5, 6, 7, 8].map fun n => { prof with n := n } },
    clu := { up.clu with claims := [24, 25, 26, 27, 36, 37].map fun id => claimOn (.slot id) .held },
    moc := { active := some { active .holdLoad with excluded := [71, 72, 73, 82, 83, 84, 94, 95] },
             waiting := [2, 3, 4, 5, 6, 7, 8].map order, untracked := none,
             ended := List.replicate 4 { ord := order 9, ending := .done, result := none, destUse := none } },
    wgu := { up.wgu with window := List.replicate 16 0, overCount := 8, session := some (session 16) },
    rlc := { up.rlc with
      queue := List.replicate 16 (.fixed (.release (.zone 1))), access := .sending,
      notices := List.replicate 8 { notice := ⟨1, 24, .setBlock, {}⟩, left := 2 } },
    cpt := { up.cpt with
      reqBuf := List.replicate 4 (.request ⟨5, []⟩ .readStatus),
      out := out (.response (responseTo ⟨5, []⟩ .readStatus .ok .none .none)) 8 ++ out (.permit .running up.epu.record) 1
        ++ out (.target 1 .done 0 0 0) 1 ++ out (.stream 5 1 view) 8 ++ out (.event .lineTxFail) 48 } }

theorem crowded_steps : ∃ t, step crowded = .next t := next_of_isNext (by decide +kernel)

/-- An idle state, and one whose commands hand on work that is served to the last. -/
theorem witness_StepRunsFrontCommand :
    State.reset.pending = [] ∧ (State.finish { up with work := [.claimRemoved, .phaseChanged] }).work = [] := by decide +kernel

theorem witness_StepKeepsQueueAndListLimits :
    OutputOk crowded.cpt ∧ BuffersOk crowded ∧ ClaimsOk crowded.clu ∧ OrdersOk crowded.moc ∧ WeighOk crowded.wgu
      ∧ PeersOk crowded ∧ ∃ t, step crowded = .next t :=
  ⟨by unfold OutputOk; decide +kernel, by unfold BuffersOk; decide, by unfold ClaimsOk; decide,
    ⟨by decide, by decide, fun a h => by cases h; decide⟩, ⟨by decide, by decide, fun a h => by cases h; decide⟩,
    ⟨by decide, by decide, by decide, fun h => by cases h⟩, crowded_steps⟩

/-- The trailer of section 7.8 READY in bay 2, and a peer's newer record at the front: no power-on, no reset pin, no
restart. -/
theorem witness_StepKeepsTrailerSumsAndVersions :
    let s : State := { docked with pending := [.rxTruckState 3 77 2 18 .noTruck] }
    TrucksOk s.tbu ∧ (∃ t, step s = .next t) ∧ s.pending.head? ≠ some .powerOn
      ∧ s.pending.head? ≠ some .resetPinAssert ∧ ∀ straps, s.pending.head? ≠ some (.restart straps) := by
  have h2 : SumsOk (docked.tbu.trucks.get 2).content :=
    ⟨by decide, by decide, by decide +kernel, fun g hg => by
      have : g = 0 ∨ g = 1 ∨ g = 2 := by simp [trailer] at hg; omega
      rcases this with rfl | rfl | rfl <;> decide⟩
  refine ⟨fun bay => ?_, next_of_isNext (by decide +kernel), by decide, by decide, fun _ h => by cases h⟩
  match bay with
  | 0 => trivial
  | 1 => trivial
  | 2 => exact h2
  | 3 => trivial
  | _ + 4 => trivial

/-- A change of the node state with its event: the end of joining; the entry of RESET; and a HELD claim that a step leaves. -/
theorem witness_NodeStateAndHeldChangeOnlyByTheirEvents :
    let s : State := { up with rlc := { up.rlc with nodeState := .joining, joinEnd := some 5000 },
                               pending := [.joinTimerExpiry] }
    let h : State := { { up with clu := { up.clu with claims := [claimOn (.zone 1) .held] } } with pending := [.lineBusy] }
    ((∃ t, step s = .next t) ∧ nodeEvent s .joinTimerExpiry .joining .running
      ∧ ∃ t, step { up with pending := [.powerOn] } = .next t ∧ t.rlc.nodeState = .reset)
      ∧ ∃ t c, step h = .next t ∧ c ∈ t.clu.claims ∧ c.state = .held
        ∧ h.pending.head? ≠ some (.settleTimerExpiry c.target) :=
  ⟨⟨next_of_isNext (by decide +kernel), ⟨rfl, rfl⟩, _, rfl, rfl⟩,
    _, claimOn (.zone 1) .held, step_after (c := .lineBusy) (by decide +kernel), by decide +kernel, rfl, by decide⟩

theorem up_imageOk : ImageOk up := by
  refine ⟨by decide, ?_⟩
  show up.smu.slots.map (·.id) = allSlots demo ∧ RowsFit demo ∧ ZonesDistinct demo
  exact ⟨by decide +kernel, by unfold RowsFit; decide, by unfold ZonesDistinct; decide⟩

/-- A parked node with six permits of 0 whose refresh is due; and a node with an image that takes a NOTICE. -/
theorem witness_StepKeepsZeroPermitsImageAndMap :
    let p : State := { up with rlc := { up.rlc with nodeState := .parked }, pending := [.refreshTimerExpiry] }
    let s : State := { up with pending := [.rxNotice 6 88 ⟨1, 24, .pick, {}⟩] }
    (PermitsOk p ∧ p.rlc.nodeState ≠ .running ∧ ∃ t, step p = .next t)
      ∧ ImageOk s ∧ s.cpt.image = some demo ∧ (∃ t, step s = .next t) ∧ s.pending.head? ≠ some .powerOn
      ∧ s.pending.head? ≠ some .resetPinAssert :=
  ⟨⟨fun _ => by decide, by decide, next_of_isNext (by decide +kernel)⟩,
    up_imageOk, rfl, next_of_isNext (by decide +kernel), by decide, by decide⟩

/-! ## Witnesses: frames, permits, ranks, heights and weights -/

/-- The beacon of section 10.5, a CLAIM of a target kind that no code names, a port frame and a POSITION at their limits. -/
theorem witness_FramesAndBytesAgree :
    Codec.frameOk beaconFrame = true ∧ Codec.decode beaconBytes = some beaconFrame
      ∧ Codec.frameOk { sender := 8, serial := 77, body := .claim (.other 255 65535) 255 } = true
      ∧ (255 < 256 ∧ 65535 < 65536 ∧ ([1, 2] : List Byte).length < 65536)
      ∧ (Codec.openPort oddBytes).isSome = true
      ∧ Codec.positionFrameFits (posFrame 65535 (-1) 0 30000 2) = true := by
  decide +kernel

/-- An obstacle at the allowance and one a millimetre beyond it; a ceiling of 100. Two obstacles at one distance, and three
limits of 100: the cause is the first in the order of R69. -/
theorem witness_TravelPermitIsTheLeastLimit :
    let obs : List Obstacle := [⟨601, .peer 3⟩, ⟨600, .runwayEnd⟩]
    let one (d vmax : Int) (cs : List Permit) : Permit := travelPermit vmax 250 600 [⟨d, .row 2⟩, ⟨d, .peer 3⟩] cs
    ((0 : Int) ≤ 2000 ∧ (0 : Int) ≤ 250 ∧ obs ≠ [] ∧ (∀ c ∈ [(⟨100, .overload⟩ : Permit)], 0 ≤ c.speed)
      ∧ (∃ o ∈ obs, o.d - 600 ≤ 0) ∧ ∃ o ∈ obs, 0 < o.d - 600)
      ∧ one 620 2000 [] = ⟨100, .peer 3⟩
      ∧ one 9000 100 [⟨100, .ceiling 1⟩, ⟨100, .conflict 7⟩, ⟨100, .conflict 4⟩] = ⟨100, .conflict 4⟩ := by decide +kernel

/-- Zones of every kind: one shut, one behind, one that ends a permit, two NO_LOAD ahead of gantry and trolley, and one in
conflict. -/
def zoned : Image :=
  { demo with zones := [⟨1, .exclusive, 100000, 110000, 0, 0, 0, 0⟩, ⟨2, .truckBay, 20000, 30000, 0, 0, 0, 2⟩,
      ⟨3, .slow, 44500, 45000, 0, 0, 500, 0⟩, ⟨4, .noLoad, 50000, 55000, 15000, 20000, 0, 0⟩,
      ⟨5, .noLoad, 38000, 39000, 20000, 25000, 0, 0⟩, ⟨6, .exclusive, 44000, 44600, 0, 0, 0, 0⟩] }

/-- An overload over row 5 at 38,000, with a peer ahead and one at the same x, zone 6 held in conflict: every wall by hand from
R52 to R62, and each ceiling of R64 and R65. -/
theorem witness_ObstaclesAndCeilingsAreCounted :
    let s : State := { up with
      cpt := { up.cpt with image := some zoned, held := some (still 38000 15000 5000 .closed) },
      wgu := { up.wgu with loadClass := .overload },
      ptb := { up.ptb with peers := [peer3 80, { peer3 80 with n := 4, x := 38000, vx := 0 }] },
      clu := { up.clu with claims := [claimOn (.zone 6) .held], conflicts := [6] } }
    let o := obstaclesOf s zoned
    let same (a b : List Obstacle) : Bool := a.length == b.length && a.all fun x => b.contains x
    same o.gantryPlus [⟨27493, .peer 3⟩, ⟨-15200, .peer 4⟩, ⟨154500, .runwayEnd⟩, ⟨54500, .zone 1⟩, ⟨4500, .noLoad 4⟩] = true
      ∧ same o.gantryMinus [⟨-15200, .peer 4⟩, ⟨30500, .runwayEnd⟩, ⟨500, .zone 2⟩, ⟨21500, .row 1⟩, ⟨13500, .row 2⟩,
          ⟨5500, .row 3⟩, ⟨1500, .row 4⟩] = true
      ∧ same o.trolleyPlus [⟨14000, .spanEnd⟩, ⟨4000, .noLoad 5⟩, ⟨0, .column 97⟩, ⟨3000, .column 98⟩] = true
      ∧ same o.trolleyMinus [⟨14000, .spanEnd⟩, ⟨8000, .column 93⟩, ⟨5000, .column 94⟩, ⟨2000, .column 95⟩,
          ⟨-1000, .column 96⟩] = true
      ∧ (freeSet o).gantryMinus = -15200
      ∧ (∀ c ∈ [⟨500, .ceiling 3⟩, ⟨100, .overload⟩], c ∈ travelCeilings s zoned) ∧ conflictCeilings s zoned = [⟨100, .conflict 6⟩]
      ∧ demo.rows.length ≤ 40 ∧ (∀ row ∈ demo.rows, row.lanes.length ≤ 12) ∧ demo.rows[5 - 1]?.isSome = true
      ∧ (slotRec up.smu 93).isSome = true := by decide +kernel

/-- `up` with the hook at a height. -/
def hookAt (z : Int) (s : State) : State := { s with cpt := { s.cpt with held := some (still 60000 15000 z .closed) } }

/-- The order lowering onto a contact height of 2,800. -/
def lowering : State := working { active .pickLower with contact := some 2800 }

/-- Each row of R66 and of R67, at the edges 9,000, 300 and contact + 500. -/
theorem witness_HoistPermitsFollowTables :
    (demo.zMax ≤ (hookAt 9000 up).sample.z)
      ∧ ((hookAt 8999 up).sample.z < demo.zMax ∧ up.wgu.loadClass ≠ .overload)
      ∧ ((hookAt 8999 { up with wgu := { up.wgu with loadClass := .overload } }).sample.z < demo.zMax)
      ∧ ((hookAt 300 up).sample.z ≤ demo.zMin)
      ∧ (demo.zMin < (hookAt 301 up).sample.z ∧ up.moc.active = none)
      ∧ (demo.zMin < (hookAt 3300 lowering).sample.z ∧ (hookAt 3300 lowering).sample.z ≤ 2800 + 500)
      ∧ (2800 + 500 < (hookAt 3301 lowering).sample.z)
      ∧ (lowering.moc.active = some { active .pickLower with contact := some 2800 })
      ∧ ((active .toSource).phase ≠ .pickLower ∧ (active .toSource).phase ≠ .placeLower) := by decide

/-- A parked peer STALE and LOST, at rest; and one that moves: its envelope by the numbers of section 3.10, to each side. -/
theorem witness_EnvelopeEdgesAreExact :
    let parked : Peer := { peer3 80 with nodeState := some .parked, liveness := .stale, vx := 0 }
    (parked.nodeState = some .parked ∧ parked.liveness ≠ .lost) ∧ { parked with liveness := .lost }.liveness = .lost
      ∧ 0 ≤ demo.runway ∧ 0 < peerDec demo parked
      ∧ envelope demo 5000 parked = ⟨75500, 88500⟩ ∧ envelope demo 5000 { parked with liveness := .lost } = ⟨75300, 88700⟩
      ∧ envelope demo 5000 (peer3 80) = ⟨73993, 88700⟩ ∧ envelope demo 5000 { peer3 80 with vx := 800 } = ⟨75300, 90007⟩
      ∧ envelope demo 5000 { peer3 80 with x := 5000 } = ⟨0, 11700⟩ := by decide +kernel

/-- A peer's HELD claim at the own priority with a lower serial, and waiting orders by priority. -/
theorem witness_ClaimsAndOrdersRankByPriority :
    (let p : Peer := { peer3 0 with serial := 50, claims := [⟨.zone 1, true, 3, 4900⟩] }
     let s : State := { near p with serial := 60 }
     betterClaim s (.zone 1) 3 = true ∧ outranksHeld s (.zone 1) 3 p = true)
      ∧ [{ order 2 with prio := 7 }, order 3, { order 4 with prio := 0 }].Pairwise (fun a b => b.prio ≤ a.prio) := by
  decide +kernel

theorem witness_SlotTopByTierAndContent :
    (slotRec row2.smu 24).map (·.content) = some .occupied ∧ (slotRec row2.smu 26).map (·.content) = some .empty
      ∧ (slotRec row2.smu 27).map (·.content) = some .unknown := by decide +kernel

/-- Each answer of R114 in turn, two peers claiming one slot; and the ids of a slot that two stacks stand on. -/
theorem witness_PickTestAnswersInOrder :
    let fit : State := [36, 37].foldl (fun s id => withSlot s id .empty none none none) row2
    let claims : List CopyEntry := [⟨.slot 24, false, 0, 4900⟩]
    let peers : List Peer := [{ peer3 0 with claims := claims }, { peer3 0 with n := 7, claims := claims }]
    let blocked : State := { fit with smu := putSlot fit.smu 24 { SlotRec.fresh with content := .occupied, blocked := true } }
    (peers.Pairwise fun p q => p.n < q.n)
      ∧ pickTest fit demo 5 = .noSlot ∧ pickTest fit demo 26 = .notOccupied .empty ∧ pickTest fit demo 27 = .notOccupied .unknown
      ∧ pickTest { blocked with ptb := { up.ptb with peers := peers } } demo 24 = .blocked
      ∧ pickTest { row2 with ptb := { up.ptb with peers := peers } } demo 24 = .claimed 3
      ∧ pickTest fit demo 24 = .eligible
      ∧ pickTest (withSlot row2 37 .unknown none none none) demo 25 = .buried [36, 37] := by decide +kernel

/-- Each failure of R122: a slot that is absent, of each content, blocked, disputed, excluded, claimed, out of reach, in a zone
a peer holds and in a NO_LOAD zone; a lower slot at 2,000 and 2,001 mm and under a stack; and upper slot 107 on 95 and 96 by
their supports, at the edges 1,850 mm, 1,350 mm and 19,250 kg. -/
theorem witness_CandidateTestNamesTheFirstFailure :
    let w : Wanted := { diameter := some 1700, width := some 1250, weight := some 18400, excluded := [] }
    let fails (s : State) (w : Wanted) (id : Nat) : Option CandidateFail := candidateFail s demo w id
    let marked (f : SlotRec → SlotRec) (id : Nat) : State :=
      { area with smu := putSlot area.smu id (f ((slotRec area.smu id).getD SlotRec.fresh)) }
    let near7 (t : Target) : State :=
      { area with ptb := { area.ptb with peers := area.ptb.peers.map fun p => { p with claims := [⟨t, true, 0, 4900⟩] } } }
    let own (h : Holder) : State := { area with clu := { up.clu with claims := [{ claimOn (.slot 71) .held with holders := [h] }] } }
    let zone (k : ZoneKind) : Image := { demo with zones := [⟨1, k, 34000, 35000, 8000, 9000, 0, 0⟩] }
    (slotPlace demo 71 = some ⟨34000, 8000, 400⟩ ∧ slotPlace demo 107 = some ⟨38000, 12500, 1300⟩)
      ∧ (fails area w 5 = some .absent ∧ fails area w 70 = some .notEmpty ∧ fails area w 71 = none
          ∧ fails (marked (fun r => { r with blocked := true }) 71) w 71 = some .blocked
          ∧ fails (marked (fun r => { r with disputed := true }) 71) w 71 = some .disputed
          ∧ fails area { w with excluded := [72, 71] } 71 = some .excluded
          ∧ fails (near7 (.slot 71)) w 71 = some .peerClaim
          ∧ fails (own (.truck 2)) w 71 = some .ownClaim ∧ fails (own .order) w 71 = none
          ∧ fails (withSlot area 24 .empty none none none) w 24 = some .outOfReach
          ∧ candidateFail (near7 (.zone 1)) (zone .exclusive) w 71 = some .zoneHeld
          ∧ candidateFail area (zone .noLoad) w 71 = some .noLoad)
      ∧ (fails area { w with diameter := some 2000 } 71 = none ∧ fails area { w with diameter := some 2001 } 71 = some .diameter
          ∧ fails area { w with diameter := none } 71 = some .diameter
          ∧ fails (withSlot area 83 .occupied none none none) w 71 = some .buriedBelow)
      ∧ (fails (marked (fun r => { r with disputed := true }) 96) w 107 = some .support
          ∧ fails area { w with diameter := some 1850 } 107 = none
          ∧ fails area { w with diameter := some 1851 } 107 = some .tolerance
          ∧ fails area { w with width := some 1350 } 107 = none ∧ fails area { w with width := some 1351 } 107 = some .width
          ∧ fails area { w with width := none } 107 = some .width
          ∧ fails area { w with weight := some 19250 } 107 = none ∧ fails area { w with weight := some 19251 } 107 = some .weight
          ∧ fails area { w with weight := none } 107 = some .weight)
      ∧ (passes area demo w .lowerOnly 71 = true ∧ passes area demo w .lowerOnly 107 = false ∧ passes area demo w .any 107 = true)
      ∧ demo.rows.length ≤ 40 ∧ (∀ row ∈ demo.rows, row.lanes.length ≤ 12) ∧ 107 ∈ areaSlots demo 5 5 ∧ 107 ∉ areaSlots demo 1 4
      ∧ (wantedOf (toBay .decide)).weight = some 26860 := by decide +kernel

theorem witness_AreaChoiceIsCheapest :
    demo.rows.length ≤ 40 ∧ (∀ row ∈ demo.rows, row.lanes.length ≤ 12)
      ∧ areaChoice area demo ⟨some 1700, some 1250, some 18400, []⟩ 3 5 .any = some 71
      ∧ 72 ∈ areaSlots demo 3 5 ∧ passes area demo ⟨some 1700, some 1250, some 18400, []⟩ .any 72 = true := by
  decide +kernel

theorem witness_GrossIsRoundedHalfAway :
    0 ≤ ((209800 : Int) - 209800) * demo.scaleSpan ∧ ((209799 : Int) - 209800) * demo.scaleSpan < 0 := by decide

/-- Each row of R132 at its edge: the counts 7 and 8, the sums 16,000, 15,999, 9,599, 9,600, 639,999 and 640,000; and weights
at and one past the tolerance of 270 kg for a declared 27,000. -/
theorem witness_LoadClassAndMatchFlagFollowTables :
    (let win (last : Int) : List Int := List.replicate 15 0 ++ [last]
     let sum (last : Int) : Int := (win last).foldl (· + ·) 0
     (8 ≤ 8 ∧ 7 < 8) ∧ (win 0).length = 16 ∧ 16 * 1000 ≤ sum 16000 ∧ sum 15999 < 16 * 1000 ∧ sum 9599 < 16 * 600
       ∧ 16 * 600 ≤ sum 9600 ∧ sum 639999 < 16 * demo.ratedCapacity ∧ 16 * demo.ratedCapacity ≤ sum 640000)
      ∧ (let limit : Int := max (demo.toleranceKg * 1000) (27000 * demo.tolerancePm)
         limit < |((27271 : Nat) : Int) - ((27000 : Nat) : Int)| * 1000
           ∧ ¬ limit < |((27270 : Nat) : Int) - ((27000 : Nat) : Int)| * 1000) := by decide +kernel

/-! ## Witnesses: resets, line access and reception -/

theorem witness_StrapsGiveTheCraneNumber :
    State.reset.rlc.nodeState = .reset ∧ (1 ≤ 7 ∧ (⟨7, false⟩ : Straps).value.val = 7)
      ∧ ((⟨0, true⟩ : Straps).value.val = 0 ∧ (⟨0, true⟩ : Straps).eighthTied = true)
      ∧ ((⟨0, false⟩ : Straps).value.val = 0 ∧ (⟨0, false⟩ : Straps).eighthTied = false)
      ∧ ∃ u, step crowded = .next u :=
  ⟨by decide, by decide, by decide, by decide, crowded_steps⟩

/-- `up` with frames queued and the head's access. -/
def lined (a : Access) (n attempts : Nat) : State :=
  { up with rlc := { up.rlc with queue := List.replicate n .beacon, access := a, attempts := attempts } }

/-- A wait that counts, one suspended, a second and a third attempt being sent, alone or with a frame behind it. -/
theorem witness_LineAccessOfTheHeadFrame :
    ((lined (.counting 15) 1 0).rlc.access = .counting 15 ∧ (lined (.counting 15) 1 0).rlc.queue = [.beacon])
      ∧ (lined (.suspended 0) 1 0).rlc.access = .suspended 0
      ∧ ((lined .sending 1 1).rlc.access = .sending ∧ (lined .sending 1 1).rlc.queue ≠ []
          ∧ (lined .sending 1 1).rlc.attempts < 2)
      ∧ (2 ≤ (lined .sending 1 2).rlc.attempts ∧ (lined .sending 1 2).rlc.queue.length ≤ 1)
      ∧ 2 ≤ (lined .sending 2 2).rlc.queue.length := by decide

/-- 47 and 48 events waiting with none lost; 46 and 47 after a loss. A BEACON waiting, room for one frame, and a full
queue. -/
theorem witness_OffersAreQueuedOrCounted :
    (let c (n lost : Nat) : Cpt :=
       { up.cpt with out := List.replicate n { stamp := 0, body := .event .lineTxFail }, lost := lost }
     ((c 47 0).lost = 0 ∧ waitingOut isEvent (c 47 0).out < 48) ∧ 48 ≤ waitingOut isEvent (c 48 0).out
       ∧ ((c 46 2).lost ≠ 0 ∧ waitingOut isEvent (c 46 2).out ≤ 46) ∧ 47 ≤ waitingOut isEvent (c 47 2).out)
      ∧ (isRefilled .beacon = true ∧ .beacon ∈ waitingFrames (lined (.counting 0) 1 0).rlc)
      ∧ (.beacon ∉ waitingFrames (lined .sending 1 0).rlc)
      ∧ (isRefilled (.fixed (.release (.zone 1))) = false ∧ (lined .sending 15 0).rlc.queue.length < 16)
      ∧ 16 ≤ (lined .sending 16 0).rlc.queue.length := by decide +kernel

/-- Bad bytes on the line; at the crane port a wrong CRC, a frame cut short, a POSITION whose
grip code is listed and one whose is not, an unknown kind, and a PARK whose
request is spelled, is not, is another, or is longer than its header says; with room and with none. -/
theorem witness_BadInputIsCountedAlone :
    up.rlc.nodeState ≠ .reset ∧ Codec.decode (beaconBytes.set 34 0) = none
      ∧ Codec.openPort (parkBytes.set 6 0) = none ∧ Codec.openPort (Codec.withCrc [4, 0, 0, 0]) = none
      ∧ (Codec.openPort (posBytes 1 0 0 0 0)).map (·.kind) = some 32
      ∧ Codec.decodePosition (posBytes 1 0 0 0 2) = some (posFrame 1 0 0 0 2) ∧ (Codec.gripOf 2).isSome = true
      ∧ Codec.decodePosition (posBytes 1 0 0 0 3) = some (posFrame 1 0 0 0 3) ∧ Codec.gripOf 3 = none
      ∧ (let counted (bytes : List Byte) : Nat := (after (.cpFrameReceived { bytes := bytes, request := none }) up).cpt.cpBad
         counted (posBytes 1 0 0 0 2) = 0 ∧ counted (posBytes 1 0 0 0 3) = 1 ∧ counted (Codec.portFrame 32 1 [0]) = 1)
      ∧ (Codec.openPort oddBytes).map (·.kind) = some 99 ∧ 25 ≤ 99
      ∧ Codec.openPort parkBytes = some { kind := 4, length := 0, seq := 5, payload := [] } ∧ Codec.reqCode .park = 4
      ∧ reqKind .park = .park ∧ reqKind .start ≠ .park
      ∧ Codec.openPort (Codec.withCrc [4, 0, 0, 0, 5, 9]) = some { kind := 4, length := 0, seq := 5, payload := [9] }
      ∧ up.cpt.reqBuf.length < 4 ∧ 4 ≤ crowded.cpt.reqBuf.length := by decide +kernel

/-- Frames that fault, that are only reported, and that have no effect; a node that joins, one that runs with an order, and
one in CONFIG. -/
theorem witness_DuplicateNumberEvidence :
    let joining : State := { up with rlc := { up.rlc with nodeState := .joining } }
    let busy : State := working (active .toSource)
    (up.rlc.craneNo = some 2 ∧ 77 ≠ up.serial ∧ up.rlc.nodeState ≠ .reset ∧ up.work = [] ∧ ClaimsOk up.clu)
      ∧ Codec.frameOk ⟨2, 77, .join 9 100⟩ = true ∧ Codec.frameOk ⟨2, 77, .beacon plainBeacon⟩ = true
      ∧ Codec.frameOk ⟨2, 77, .welcome 9 3⟩ = true ∧ Codec.frameOk ⟨2, 77, .profile plainProfile⟩ = true
      ∧ (∀ b, ¬ faultsNode .running (.profile b) ∧ ¬ onlyReported .running (.profile b))
      ∧ onlyReported up.rlc.nodeState (.join 9 100) ∧ onlyReported bare.rlc.nodeState (.beacon plainBeacon)
      ∧ faultsNode up.rlc.nodeState (.beacon plainBeacon) ∧ faultsNode joining.rlc.nodeState (.welcome 9 3)
      ∧ (TxItem.beacon ∉ joining.rlc.queue ∧ joining.rlc.notices.length ≤ 8) ∧ 77 ∉ up.rlc.dupSeen
      ∧ busy.moc.active = some (active .toSource) ∧ bare.rlc.craneNo = some 2 ∧ 77 ≠ bare.serial :=
  ⟨⟨by decide, by decide, by decide, rfl, by unfold ClaimsOk; decide⟩, by decide +kernel, by decide +kernel,
    by decide +kernel, by decide +kernel, fun _ => ⟨id, id⟩, trivial, trivial, trivial, trivial, ⟨by decide, by decide⟩,
    by decide, by decide, by decide, by decide⟩

/-- The image's runway is not negative. -/
theorem demo_runway {s : State} (h : s.cpt.image = some demo) : ∀ g, s.cpt.image = some g → 0 ≤ g.runway := by
  intro g hg
  rw [h] at hg
  cases hg
  decide

/-- A node without a number, which hears all eight, with 7 records. -/
def full7 : State := { crowded with rlc := { crowded.rlc with craneNo := none, nodeState := .fault } }

/-- No record, with room and with none; the same pattern, another one, another serial; a pattern answered already; and a
node in RESUMING. -/
theorem witness_JoinMakesOrResetsARecord :
    let s := near (peer3 80)
    Routed up 3 77 (.join 10 200001) ∧ (∀ g, up.cpt.image = some g → 0 ≤ g.runway)
      ∧ peerAt up.ptb 3 = none ∧ up.ptb.peers.length < 7 ∧ (3, 10) ∉ up.rlc.welcomed
      ∧ Routed full7 2 77 (.join 10 0) ∧ peerAt full7.ptb 2 = none ∧ 7 ≤ full7.ptb.peers.length
      ∧ (full7.ptb.fullTold = false ∧ ∀ g, full7.cpt.image = some g → 0 ≤ g.runway)
      ∧ Routed s 3 77 (.join 9 0) ∧ Routed s 3 77 (.join 10 0) ∧ Routed s 3 78 (.join 9 0)
      ∧ peerAt s.ptb 3 = some (peer3 80) ∧ (peer3 80).pattern = some 9 ∧ (peer3 80).serial = 77
      ∧ (3, 10) ∈ ({ up.rlc with welcomed := [(3, 10)] } : Rlc).welcomed
      ∧ (after (.rxJoin 3 78 10 0) { s with rlc := { s.rlc with welcomed := [(3, 9), (4, 9)] } }).rlc.welcomed = [(4, 9), (3, 10)]
      ∧ Routed { up with rlc := { up.rlc with nodeState := .resuming } } 3 77 (.join 10 0) :=
  ⟨by unfold Routed; decide +kernel, demo_runway rfl, by decide, by decide, by decide, by unfold Routed; decide +kernel,
    by decide +kernel, by decide, ⟨by decide, demo_runway rfl⟩, by unfold Routed; decide +kernel,
    by unfold Routed; decide +kernel, by unfold Routed; decide +kernel, by decide, by decide, by decide, by decide,
    by decide +kernel, by unfold Routed; decide +kernel⟩

/-- A BEACON past the runway and the vx range with a claim on the bay's zone, from a known peer, another serial, an unknown
number with room and with none; and notice sequences behind, 3 and 4 ahead of 41, and one of 0. -/
theorem witness_BeaconUpdatesItsRecord :
    let b : Beacon := { plainBeacon with x := 200001, vx := -4001, claims := [⟨.zone 2, true, 3, some 18⟩] }
    let s := near (peer3 80)
    Routed s 3 77 (.beacon b) ∧ Routed s 3 78 (.beacon b) ∧ peerAt s.ptb 3 = some (peer3 80) ∧ (peer3 80).serial = 77
      ∧ (∀ g, s.cpt.image = some g → 0 ≤ g.runway) ∧ s.cpt.image = some demo ∧ targetBay demo (.zone 2) = some 2
      ∧ Routed up 3 77 (.beacon b) ∧ peerAt up.ptb 3 = none ∧ up.ptb.peers.length < 7
      ∧ Routed full7 2 77 (.beacon b) ∧ peerAt full7.ptb 2 = none ∧ 7 ≤ full7.ptb.peers.length
      ∧ full7.ptb.fullTold = false
      ∧ (∀ k ∈ [0, 3, 40, 44, 45], Routed (tracked (some 41)) 6 88 (.beacon { plainBeacon with noticeSeq := k }))
      ∧ trackAt (tracked (some 41)).smu 6 = some ⟨6, 88, some 41⟩
      ∧ (44 - 41 ≤ 3 ∧ 4 ≤ 45 - 41 ∧ 32768 ≤ 40 + 65535 - 41 ∧ 32768 ≤ 3 + 65535 - 41)
      ∧ up.rlc.nodeState ≠ .config ∧ bare.rlc.nodeState = .config ∧ Routed bare 3 77 (.beacon b) :=
  ⟨by unfold Routed; decide +kernel, by unfold Routed; decide +kernel, by decide, by decide, demo_runway rfl, rfl,
    by decide, by unfold Routed; decide +kernel, by decide, by decide, by unfold Routed; decide +kernel,
    by decide +kernel, by decide, by decide, by unfold Routed; decide +kernel, by decide, by decide, by decide, rfl,
    by unfold Routed; decide +kernel⟩

theorem witness_ProfileIsTakenInRange :
    let s := near (peer3 80)
    Routed s 3 77 (.profile plainProfile) ∧ Routed s 3 78 (.profile plainProfile) ∧ peerAt s.ptb 3 = some (peer3 80)
      ∧ (peer3 80).serial = 77 ∧ profileInRange plainProfile = true
      ∧ (profileInRange { plainProfile with left := 20001 } = false
          ∧ Routed s 3 77 (.profile { plainProfile with left := 20001 }) ∧ s.cpt.image ≠ none)
      ∧ Routed up 3 77 (.profile plainProfile) ∧ peerAt up.ptb 3 = none ∧ up.ptb.peers.length < 7
      ∧ Routed full7 2 77 (.profile plainProfile) ∧ peerAt full7.ptb 2 = none ∧ 7 ≤ full7.ptb.peers.length :=
  ⟨by unfold Routed; decide +kernel, by unfold Routed; decide +kernel, by decide, by decide, by decide,
    ⟨by decide, by unfold Routed; decide +kernel, by decide +kernel⟩, by unfold Routed; decide +kernel,
    by decide, by decide, by unfold Routed; decide +kernel, by decide +kernel, by decide⟩

/-- A copy with the target, one without it and room, and a full one; and a sender without a record. A WELCOME for this
joining node, and one in RUNNING. -/
theorem witness_ClaimReleaseAndWelcomeReachTheRecord :
    let entry (id : Nat) : CopyEntry := ⟨.slot id, true, 3, 4900⟩
    let p (n : Nat) : Peer := { peer3 80 with claims := (upTo n).map entry }
    let s : State := { near (peer3 80) with rlc := { up.rlc with nodeState := .joining } }
    (Routed (near (p 5)) 3 77 (.claim (.slot 1) 7) ∧ Routed (near (p 5)) 3 77 (.release (.slot 1)))
      ∧ (peerAt (near (p 5)).ptb 3 = some (p 5) ∧ (p 5).serial = 77
        ∧ (∃ e ∈ (p 5).claims, e.target = .slot 1) ∧ (∀ e ∈ (p 5).claims, e.target ≠ .slot 7) ∧ (p 5).claims.length < 6
        ∧ (∀ e ∈ (p 6).claims, e.target ≠ .slot 7) ∧ 6 ≤ (p 6).claims.length)
      ∧ (Routed up 3 77 (.claim (.slot 1) 7) ∧ peerAt up.ptb 3 = none)
      ∧ (Routed s 3 77 (.welcome 7 2) ∧ s.rlc.nodeState = .joining ∧ s.rlc.pattern = some 7 ∧ s.rlc.craneNo = some 2
        ∧ peerAt s.ptb 3 = some (peer3 80) ∧ (peer3 80).serial = 77 ∧ Routed up 3 77 (.welcome 7 2)) :=
  ⟨⟨by unfold Routed; decide +kernel, by unfold Routed; decide +kernel⟩, by decide +kernel,
    ⟨by unfold Routed; decide +kernel, by decide⟩,
    ⟨by unfold Routed; decide +kernel, by decide, by decide, by decide, by decide, by decide,
      by unfold Routed; decide +kernel⟩⟩

/-- Peer 3 with a claim on one target. -/
def peerOn (t : Target) (held : Bool) (prio : Nat) : Peer := { peer3 20 with claims := [⟨t, held, prio, 4900⟩] }

/-- `up` with one peer and own claims. -/
def claiming (p : Peer) (cs : List OwnClaim) : State := { near p with clu := { up.clu with claims := cs } }

/-- A better CLAIM makes the ASKING entry yield; a RELEASE, a BEACON without the claim, and the peer's becoming LOST while it
claims nothing let the WAITING entry ask again. -/
theorem witness_ClaimsYieldAndAreAskedAgain :
    let s := claiming (peer3 20) [claimOn (.slot 24) .asking]
    let w := claiming (peerOn (.slot 24) true 3) [claimOn (.slot 24) .waiting]
    let stale : Peer := { peer3 1000 with liveness := .stale }
    let l := claiming stale [claimOn (.slot 24) .waiting]
    let states (c : Instr) (s : State) : List ClaimState := (after c s).clu.claims.map (·.state)
    (s.rlc.nodeState = .running ∧ ClaimsOk s.clu ∧ s.rlc.queue.length ≤ 10 ∧ peerAt s.ptb 3 = some (peer3 20))
      ∧ (Routed s 3 77 (.claim (.slot 24) 4) ∧ states (.rxClaim 3 77 (.slot 24) 4) s = [.waiting])
      ∧ (peerAt w.ptb 3 = some (peerOn (.slot 24) true 3) ∧ Routed w 3 77 (.release (.slot 24))
          ∧ states (.rxRelease 3 77 (.slot 24)) w = [.asking])
      ∧ (Routed w 3 77 (.beacon plainBeacon) ∧ states (.rxBeacon 3 77 plainBeacon) w = [.asking])
      ∧ (peerAt l.ptb 3 = some stale ∧ stale.liveness = .stale ∧ states (.peerLost 3) l = [.asking]) :=
  ⟨⟨by decide, by unfold ClaimsOk; decide, by decide, by decide⟩,
    ⟨by unfold Routed; decide +kernel, by decide +kernel⟩,
    ⟨by decide, by unfold Routed; decide +kernel, by decide +kernel⟩,
    ⟨by unfold Routed; decide +kernel, by decide +kernel⟩, ⟨by decide, rfl, by decide +kernel⟩⟩

/-- Ahead by 1, by 32,767 and by 32,768, a repeat and a sequence 0, for a slot of the map and for one outside it. -/
theorem witness_NoticeIsAppliedWhenAhead :
    let s := tracked (some 41)
    (∀ seq ∈ [0, 41, 42, 32808, 32809], ∀ slot ∈ [24, 0], Routed s 6 88 (.notice ⟨seq, slot, .pick, {}⟩))
      ∧ s.rlc.nodeState ≠ .config ∧ trackAt s.smu 6 = some ⟨6, 88, some 41⟩
      ∧ (32808 - 41 < 32768 ∧ 32768 ≤ 32809 - 41)
      ∧ s.cpt.image = some demo ∧ (slotRec s.smu 24).isSome = true ∧ slotRec s.smu 0 = none :=
  ⟨by unfold Routed; decide +kernel, by decide, by decide, by decide, rfl, by decide +kernel, by decide +kernel⟩

/-- The trailer of section 7.8 a version on, an equal version without a truck, and a peer that is known. -/
theorem witness_PeerTruckRecordIsTakenWhenNewer :
    let s : State := { docked with ptb := (near (peer3 80)).ptb }
    let c : TruckContent := .present false trailer 14000 [0, 4200, 9800]
    Routed s 3 77 (.truckState 2 18 c) ∧ Routed s 3 77 (.truckState 2 17 .noTruck) ∧ s.rlc.nodeState ≠ .config
      ∧ s.cpt.image = some demo ∧ bayZone demo 2 = some ⟨2, .truckBay, 120000, 136000, 0, 0, 0, 2⟩
      ∧ s.tbu.requests.get 2 = none ∧ stateFail demo ⟨2, .truckBay, 120000, 136000, 0, 0, 0, 2⟩ c = none
      ∧ peerAt s.ptb 3 = some (peer3 80) ∧ (peer3 80).serial = 77
      ∧ (s.tbu.trucks.get 2).version = 17 ∧ .noTruck ≠ (s.tbu.trucks.get 2).content :=
  ⟨by unfold Routed; decide +kernel, by unfold Routed; decide +kernel, by decide, rfl, by decide +kernel, by decide,
    by decide +kernel, by decide, by decide, by decide, by decide⟩

/-! ## Witnesses: timers -/

/-- `up` with a queue and the line's schedules due. -/
def scheduled (n : Nat) : State :=
  { up with rlc := { up.rlc with
      queue := List.replicate n (.fixed (.release (.zone 1))), access := .counting 3,
      notices := [{ notice := ⟨1, 24, .setBlock, {}⟩, left := 1 }, { notice := ⟨2, 25, .setBlock, {}⟩, left := 2 }],
      truckWin := (PerBay.all none).set 2 (some { release := false, left := 2 }),
      profileDelays := [5060, 5040, 5040],
      welcomeDelays := [{ due := 5030, pattern := 9, joiner := 3 }, { due := 5020, pattern := 8, joiner := 4 }] } }

/-- Room for one frame more and none; the earliest delays; a node that joins. -/
theorem witness_LineSchedulesQueueTheirFrames :
    let s := scheduled 15
    s.rlc.beaconDue = some 5050 ∧ s.rlc.nodeState = .running ∧ s.rlc.queue.length < 16
      ∧ (scheduled 0).rlc.queue = [] ∧ (scheduled 0).rlc.notices.length ≤ 8
      ∧ s.rlc.truckWin.get 1 = none ∧ s.rlc.truckWin.get 2 = some { release := false, left := 2 }
      ∧ s.rlc.profileDue = some 8000
      ∧ (5040 ∈ s.rlc.profileDelays ∧ ∀ d ∈ s.rlc.profileDelays, 5040 ≤ d)
      ∧ s.rlc.welcomeDelays = [{ due := 5030, pattern := 9, joiner := 3 }] ++ { due := 5020, pattern := 8, joiner := 4 } :: []
      ∧ (∀ d ∈ [({ due := 5030, pattern := 9, joiner := 3 } : WelcomeDelay)], 5020 < d.due) := by decide

theorem witness_JoinRepeat :
    let s : State := { up with rlc := { up.rlc with nodeState := .joining, joinDue := some 5100, joinEnd := some 5900 } }
    s.rlc.nodeState = .joining ∧ s.rlc.joinDue = some 5100 ∧ s.rlc.pattern = some 7 ∧ s.rlc.queue.length < 16 := by decide

/-- A PARKED node, whose interval is 1,000 ms, and delays that expire in a state that sends neither frame. -/
theorem witness_LineSchedulesElsewhere :
    let parked : State := { scheduled 15 with rlc := { (scheduled 15).rlc with nodeState := .parked } }
    let joining : State := { scheduled 15 with rlc := { (scheduled 15).rlc with nodeState := .joining } }
    (parked.rlc.beaconDue = some 5050 ∧ parked.rlc.nodeState = .parked)
      ∧ (joining.rlc.nodeState ≠ .running ∧ joining.rlc.nodeState ≠ .resuming ∧ joining.rlc.nodeState ≠ .parked
          ∧ joining.rlc.nodeState ≠ .fault) := by decide

/-- The join and the resume timer; each cause of ORDER_WAITING: the grip, none, a full list, a claim, a stale sample, a permit;
and a LIVE peer, a STALE one, and a STALE one that is PARKED. -/
theorem witness_JoinResumeWaitAndSilenceTimers :
    (let j : State := { scheduled 2 with rlc := { (scheduled 2).rlc with nodeState := .joining, joinEnd := some 5900 } }
     let r : State := { scheduled 15 with rlc := { (scheduled 15).rlc with nodeState := .resuming, resumeEnd := some 5300 } }
     (j.rlc.nodeState = .joining ∧ j.rlc.joinEnd = some 5900 ∧ j.rlc.queue.length ≤ 2 ∧ j.rlc.notices.length ≤ 8)
       ∧ r.rlc.nodeState = .resuming ∧ r.rlc.resumeEnd = some 5300 ∧ r.rlc.queue.length < 16)
      ∧ ((up.rlc.txFail = false ∧ up.rlc.nodeState = .running)
       ∧ (working { active .toSource with waitTold := true }).moc.active = some { active .toSource with waitTold := true }
       ∧ (working (active .opening)).moc.active = some (active .opening)
       ∧ (active .opening).phase ≠ .holdLoad ∧ (active .opening).waitTold = false
       ∧ { active .claimSource with askRefused := true }.askRefused = true
       ∧ (let s : State := { working (active .claimSource) with
             clu := { up.clu with claims := [claimOn (.slot 24) .waiting] } }
          (active .claimSource).askRefused = false
           ∧ (s.clu.claims.find? fun k => k.holders.contains .order && k.state != .held)
               = some (claimOn (.slot 24) .waiting))
       ∧ { working (active .toSource) with now := 14000 }.sampleStale = true
       ∧ (let fresh : State := { working { active .toSource with phaseAt := 0 } with
             now := 10000, cpt := { up.cpt with takenAt := 9901 } }
          max fresh.now (0 + 10000) = 10000 ∧ fresh.sampleStale = false
           ∧ 50 < |fresh.sample.x - (active .toSource).targetX|)
       ∧ |(still 22050 15000 8000 .opened).x - (active .toSource).targetX| ≤ 50)
      ∧ (up.rlc.nodeState ≠ .reset ∧ peerAt (near (peer3 350)).ptb 3 = some (peer3 350) ∧ (peer3 350).liveness = .live
       ∧ (let p : Peer := { peer3 1000 with liveness := .stale }
          peerAt (near p).ptb 3 = some p ∧ p.liveness = .stale)
       ∧ (let p : Peer := { peer3 1000 with liveness := .stale, nodeState := some .parked }
          peerAt (near p).ptb 3 = some p ∧ p.liveness = .stale)) := by
  decide +kernel

/-- An ASKING claim; peers that claim it and hold nothing; and a refresh in RUNNING, elsewhere, stale and without an
image. -/
theorem witness_SettleAndRefreshTimers :
    let p : Peer := { peer3 80 with claims := [⟨.zone 1, false, 3, 4900⟩] }
    let s : State := { near p with clu := { up.clu with claims := [claimOn (.zone 1) .asking] } }
    s.rlc.nodeState = .running ∧ findClaim s (.zone 1) = some (claimOn (.zone 1) .asking)
      ∧ (∀ p ∈ s.ptb.peers, ∀ e ∈ p.claims, e.target = .zone 1 → p.liveness ≠ .lost ∧ e.held = false)
      ∧ (bare.rlc.nodeState ≠ .reset ∧ bare.cpt.image = none) ∧ up.cpt.image = some demo
      ∧ up.sampleStale = false ∧ { up with now := 5080 }.sampleStale = true
      ∧ up.epu.lastEmitted ≠ some (zeroPermits .staleSample) ∧ up.epu.lastEmitAt + 50 ≤ up.now := by decide +kernel

/-- `claiming` with the own crane at an x. -/
def facing (x : Int) (p : Peer) (c : OwnClaim) : State :=
  { claiming p [c] with cpt := { up.cpt with held := some (still x 15000 8000 .opened) } }

/-- A zone held twice, the own footprint one millimetre outside it and touching it, and the peer's touching it or not; a slot
held twice, outranked by one priority, by the serial and by neither, and while the order lowers on it, where the memory
loses the peer that holds it no more; a bay's zone, which opens its release window; each decided at a BEACON, a settle, a position sample or a phase change. -/
theorem witness_DoubleHoldsAreSettled :
    let beaconOn (t : Target) (v : Option Nat) : Beacon := { plainBeacon with claims := [⟨t, true, 3, v⟩] }
    let zone (x px : Int) : State := facing x { peerOn (.zone 1) true 3 with x := px } (claimOn (.zone 1) .held)
    let slot (prio serial : Nat) : State :=
      { facing 60000 { peerOn (.slot 24) true prio with serial := serial } (claimOn (.slot 24) .held) with serial := 60 }
    let states (s : State) : List ClaimState := s.clu.claims.map (·.state)
    (up.rlc.nodeState = .running ∧ ClaimsOk (zone 60000 82000).clu ∧ up.cpt.image = some demo)
      ∧ (Routed (zone 93499 90000) 3 77 (.beacon (beaconOn (.zone 1) (some 0)))
          ∧ states (after (.rxBeacon 3 77 (beaconOn (.zone 1) (some 0))) (zone 93499 90000)) = [.waiting])
      ∧ (states (after (.rxBeacon 3 77 (beaconOn (.zone 1) (some 0))) (zone 93500 90000)) = [.held]
          ∧ (after (.rxBeacon 3 77 (beaconOn (.zone 1) (some 0))) (zone 93500 90000)).clu.conflicts = [])
      ∧ (TakesSample (zone 60000 93500) (posBytes 101 93500 15000 8000 0) (posFrame 101 93500 15000 8000 0) .opened
          ∧ up.moc.active = none
          ∧ (after (.positionSample (posBytes 101 93500 15000 8000 0)) (zone 60000 93500)).clu.conflicts = [1])
      ∧ (let p : Peer := { peerOn (.zone 2) true 3 with x := 150000 }
         let u := after (.rxBeacon 3 77 (beaconOn (.zone 2) (some 0))) (facing 60000 p (claimOn (.zone 2) .held))
         ownBay (facing 60000 p (claimOn (.zone 2) .held)) (.zone 2) = some 2 ∧ states u = [.waiting]
          ∧ (u.rlc.truckWin.get 2).map (·.release) = some true)
      ∧ (states (serveWork (slot 4 77) .phaseChanged) = [.waiting] ∧ states (serveWork (slot 3 50) .phaseChanged) = [.waiting]
          ∧ (serveWork (slot 3 77) .phaseChanged).clu.doubleHeld = [(24, 3)])
      ∧ (let s : State := { slot 4 77 with moc := (working (active .pickLower)).moc,
                                           clu := { (slot 4 77).clu with doubleHeld := [(24, 3), (24, 5)] } }
         states (serveWork s .phaseChanged) = [.held] ∧ (serveWork s .phaseChanged).clu.doubleHeld = [(24, 3)])
      ∧ .orderClaim 1 (.slot 24) .waiting true
          ∈ (serveWork { slot 4 77 with moc := (working (active .toSource)).moc } .phaseChanged).work
      ∧ states (after (.settleTimerExpiry (.slot 24))
          { slot 3 50 with clu := { up.clu with claims := [claimOn (.slot 24) .asking] } }) = [.waiting] :=
  ⟨⟨by decide, by unfold ClaimsOk; decide, rfl⟩, ⟨by unfold Routed; decide +kernel, by decide +kernel⟩,
    by decide +kernel,
    ⟨⟨by decide, by decide +kernel, by decide, fun last h => by cases h; decide⟩, rfl, by decide +kernel⟩,
    by decide +kernel, by decide +kernel, by decide +kernel, by decide +kernel, by decide +kernel⟩

/-- `up` with a session, and with a capture. -/
def weighing (w : List WindowEntry) : State := { up with wgu := { up.wgu with session := some { session 0 with window := w } } }

/-- Windows of 15 and 16 entries; a saturated one; weights above 99,990, below −40, at −40 and positive; captures of both
kinds at the edge of the zero window, and an empty one. -/
theorem witness_WeighTimersEndSessionAndCapture :
    let full (n : Int) : List WindowEntry := List.replicate 16 ⟨n, false⟩
    up.cpt.image = some demo
      ∧ ((weighing ((full 0).drop 1)).wgu.session = some { session 0 with window := (full 0).drop 1 }
          ∧ ((full 0).drop 1).length ≠ 16)
      ∧ ((session 16).counting = true ∧ (full 0).length = 16)
      ∧ (∃ e ∈ (full 0).set 3 ⟨0, true⟩, e.saturated = true) ∧ (∀ e ∈ full 0, e.saturated = false)
      ∧ 0 < demo.division ∧ 99990 < windowWeight demo (full 100000) ∧ windowWeight demo (full (-60)) < -2 * demo.division
      ∧ (-2 * demo.division ≤ windowWeight demo (full (-40)) ∧ windowWeight demo (full (-40)) < 0)
      ∧ (0 ≤ windowWeight demo (full 26852) ∧ windowWeight demo (full 26852) ≤ 99990)
      ∧ isOrder (session 16) = true ∧ isOrder { session 16 with kind := .span 20000 } = false
      ∧ up.wgu.base ≠ .locked .sensor := by decide +kernel

theorem witness_CaptureTimer :
    let c (k : CaptureKind) (n : Nat) (sum : Int) : Capture := { kind := k, startedAt := 2000, count := n, sum := sum }
    let s : State := { up with wgu := { up.wgu with capture := some (c .auto 1200 (1200 * 211800)), mark := true } }
    s.cpt.image = some demo ∧ s.wgu.capture = some (c .auto 1200 (1200 * 211800)) ∧ s.wgu.mark = true
      ∧ |roundHalfAway (1200 * 211800) 1200 - demo.calibratedZero| ≤ demo.zeroWindow
      ∧ demo.zeroWindow < |roundHalfAway (1200 * 211801) 1200 - demo.calibratedZero|
      ∧ (c .verify 0 0).count = 0 ∧ (c .verify 0 0).kind = .verify := by decide +kernel

theorem witness_LossOfLoadCellAndSample :
    (up.rlc.nodeState ≠ .reset ∧ up.wgu.base ≠ .locked .sensor ∧ up.wgu.session = none)
      ∧ (weighing []).wgu.session = some { session 0 with window := [] } ∧ (weighing []).cpt.image ≠ none
      ∧ (up.cpt.held ≠ none ∧ up.cpt.staleTold = false) ∧ up.rlc.nodeState = .running := by decide +kernel

/-! ## Witnesses: samples and the active order -/

/-- 15 and 16 nets in the window; a_z at 1,500 and 1,501; a lost cell; a node without an image; and an untracked load that is
set down on a lower slot, on an upper one alone in reach, beside a bay position, and nowhere. -/
theorem witness_LoadSampleFeedsWindowCountAndClass :
    let az (v : Int) : State := { up with cpt := { up.cpt with held := some { still 60000 15000 8000 .opened with az := v } } }
    (up.rlc.nodeState ≠ .reset ∧ up.cpt.image = some demo)
      ∧ (1500 < |(az 1501).sample.az| ∧ ¬ (1500 < |(az 1500).sample.az| ∨ (az 1500).sampleStale = true))
      ∧ up.wgu.window.length < 16 ∧ crowded.wgu.window.length = 16
      ∧ (({ bare with wgu := { bare.wgu with base := .locked .sensor } } : State).wgu.base = .locked .sensor
          ∧ bare.wgu.session = none ∧ bare.wgu.base ≠ .locked .sensor ∧ bare.cpt.image = none)
      ∧ (let drops (x y : Int) : List OutBody :=
           (after (.loadCellSample 209800 false) { docked with
             moc := { docked.moc with untracked := some .restart },
             wgu := { up.wgu with loadClass := .loaded, window := List.replicate 15 0 },
             cpt := { up.cpt with held := some (still x y 2000 .opened) } }).cpt.out.map (·.body)
         let clear (x y : Int) (p : SetDown) : OutBody := .event (.untrackedLoadClear x y 2000 p)
         clear 20500 6000 (.slot 24) ∈ drops 20500 6000 ∧ clear 22000 6500 (.slot 36) ∈ drops 22000 6500
          ∧ clear 123050 15050 (.position 2 1) ∈ drops 123050 15050
          ∧ clear 123051 15050 .none ∈ drops 123051 15050) := by decide +kernel

/-- 14 and 15 nets in the window of a session that counts and of one that does not; a spread of 40 and 41 kg; a_z at 1,501;
test masses 40 and 41 kg below the weight; and captures: counted, SATURATED, and left by the load class. -/
theorem witness_LoadSampleFeedsSessionAndCapture :
    let win (n : Nat) : List WindowEntry := List.replicate n ⟨26852, false⟩
    let opened (ss : Session) (raw : Int) : Wgu :=
      (after (.loadCellSample raw false) { up with wgu := { up.wgu with session := some ss } }).wgu
    let left (ss : Session) (raw : Int) : Option (List WindowEntry) := (opened ss raw).session.map (·.window)
    let span (mass : Nat) : WeighBase := (opened { session 15 with kind := .span mass } 1507500).base
    let capture : Capture := { kind := .auto, startedAt := 4000, count := 5, sum := 50 }
    let capturing (s : State) : State := { s with wgu := { s.wgu with capture := some capture, mark := true } }
    let taken (raw : Int) (saturated : Bool) (s : State) : Option Nat :=
      (after (.loadCellSample raw saturated) (capturing s)).wgu.capture.map (·.count)
    let almost : State := { up with wgu := { up.wgu with window := List.replicate 15 1000 } }
    let shaken : State := { up with cpt := { up.cpt with held := some { still 60000 15000 8000 .opened with az := 1501 } } }
    (up.rlc.nodeState ≠ .reset ∧ up.cpt.image = some demo ∧ up.wgu.base = .ready ∧ up.wgu.capture = none)
      ∧ (netOf demo 209800 0 1509248 = 26892 ∧ netOf demo 209800 0 1509291 = 26893 ∧ netOf demo 209800 0 1507500 = 26852)
      ∧ (left (session 14) 1507500 = some (win 15) ∧ left { session 15 with counting := false } 1507500 = some (win 15))
      ∧ (left (session 15) 1509248 = none ∧ (opened (session 15) 1509248).last.map (·.status) = some .stable
          ∧ left (session 15) 1509291 = some (win 15 ++ [⟨26893, false⟩]))
      ∧ (after (.loadCellSample 1507500 false) { shaken with wgu := { up.wgu with session := some (session 15) } }).wgu.session
          = some { session 15 with window := [] }
      ∧ (span 26820 = .ready ∧ span 26819 = .locked .spanFail)
      ∧ (taken 1507500 false up = some 6 ∧ taken 1507500 false shaken = some 6 ∧ taken 1507500 true up = none
          ∧ taken 1507500 false almost = none) := by
  decide +kernel

/-- A short frame, a bad grip code, a frame of another kind; the sequences 0, 32,768, 1 and 32,767 ahead of 100; and a first
sample. -/
theorem witness_PositionSampleIsTakenBySequence :
    let ahead (seq : Nat) : Nat := (seq + 65536 - 100) % 65536
    up.rlc.nodeState ≠ .reset ∧ Codec.openPort (posBytes 101 0 0 0 0).dropLast = none
      ∧ (Codec.openPort parkBytes).map (·.kind) = some 4
      ∧ Codec.openPort (Codec.portFrame 32 0 [1]) = some { kind := 32, length := 1, seq := 0, payload := [1] }
      ∧ Codec.decodePosition (posBytes 101 0 0 0 3) = some (posFrame 101 0 0 0 3) ∧ Codec.gripOf 3 = none
      ∧ Codec.decodePosition (posBytes 100 0 0 0 2) = some (posFrame 100 0 0 0 2) ∧ (Codec.gripOf 2).isSome = true
      ∧ up.cpt.sampleSeq = some 100 ∧ ahead 100 = 0 ∧ 32768 ≤ ahead 32868
      ∧ (1 ≤ ahead 101 ∧ ahead 101 < 32768) ∧ (1 ≤ ahead 32867 ∧ ahead 32867 < 32768)
      ∧ bare.cpt.sampleSeq = none ∧ bare.cpt.image = none
      ∧ TakesSample up (posBytes 32867 0 0 0 0) (posFrame 32867 0 0 0 0) .opened
      ∧ TakesSample bare (posBytes 0 0 0 0 0) (posFrame 0 0 0 0 0) .opened := by
  refine ⟨by decide, by decide +kernel, by decide +kernel, by decide +kernel, by decide +kernel, by decide,
    by decide +kernel, by decide, by decide, by decide, by decide, by decide, by decide, rfl, rfl,
    ⟨by decide, by decide +kernel, by decide, fun last h => by cases h; decide⟩,
    ⟨by decide, by decide +kernel, by decide, fun last h => by cases h⟩⟩

/-- The hook at 19 and 20 mm/s and the grip CLOSED, with no capture, with one running, and with the mark set; and a load. -/
theorem witness_PositionSampleBeginsOrAbandonsTheCapture :
    let frame (vz : Int) (g : Nat) : PositionFrame := { posFrame 101 60000 15000 8000 g with vz := vz }
    let taken (s : State) (vz : Int) (g : Nat) : Option Nat :=
      (after (.positionSample (Codec.encodePosition (frame vz g))) s).wgu.capture.map (·.count)
    let running : State := { up with wgu := { up.wgu with capture := some ⟨.auto, 4000, 5, 50⟩, mark := true } }
    (TakesSample up (Codec.encodePosition (frame 19 0)) (frame 19 0) .opened
        ∧ TakesSample running (Codec.encodePosition (frame 20 1)) (frame 20 1) .closed)
      ∧ (taken up 19 0 = some 0 ∧ taken up (-20) 0 = none ∧ taken up 0 1 = none
          ∧ taken { up with wgu := { up.wgu with mark := true } } 0 0 = none
          ∧ taken { up with wgu := { up.wgu with loadClass := .loaded } } 0 0 = none)
      ∧ (taken running 19 0 = some 5 ∧ taken running 20 0 = none ∧ taken running 0 1 = none)
      ∧ (let s : State := { running with wgu := { running.wgu with base := .unzeroed, session := some (session 16) } }
         s.moc.active = none ∧ isOrder (session 16) = true
          ∧ (after (.positionSample (Codec.encodePosition (frame 0 1))) s).wgu.last.map (·.status) = some .noResult) :=
  ⟨⟨⟨by decide, by decide +kernel, by decide, fun last h => by cases h; decide⟩,
    ⟨by decide, by decide +kernel, by decide, fun last h => by cases h; decide⟩⟩, by decide +kernel, by decide +kernel,
    by decide +kernel⟩

/-- `working` at a place. -/
def at_ (x z : Int) (g : Grip) (a : Active) : State :=
  { working a with cpt := { up.cpt with held := some (still x 5000 z g) }, wgu := { up.wgu with loadClass := .loaded } }

/-- 50 and 51 mm from the place, at the source and the destination; 199 and 200 mm above the grip height, with a load and
with none, and under an UNKNOWN stack on a slot that a peer claims, before and after lift-off; a bay position that takes the coil and one that does not, whose DECIDE finds the other; grip OPEN
over slot 71; 51 and 50 mm below travel height. -/
theorem witness_OrderMovesAtItsSamples :
    let lift : Active := { active .lift with gripHeight := some 2800 }
    let open_ : Active := { active .opening with destUse := some (.slot 71), lifted := true }
    let dest : Active := { active .toDest with destUse := some (.slot 71), destPlace := some ⟨34000, 5000, 400⟩, lifted := true }
    let phase (a : Active) (x z : Int) (g : Nat) (s : State) : Option Phase :=
      (after (.positionSample (posBytes 101 x 5000 z g)) { s with moc := (working a).moc }).moc.active.map (·.phase)
    let loaded : State := withSlot (at_ 22000 2999 .closed lift) 36 .empty none none none
    let stacked : State := { at_ 22000 2999 .closed lift with
      ptb := { up.ptb with peers := [{ peer3 20 with claims := [⟨.slot 24, true, 3, 4900⟩] }] } }
    (TakesSample (working lift) (posBytes 101 22000 5000 3000 1) (posFrame 101 22000 5000 3000 1) .closed
        ∧ up.cpt.image = some demo ∧ ZonesDistinct demo)
      ∧ (phase (active .toSource) 22050 8000 0 up = some .pickLower ∧ phase (active .toSource) 22051 8000 0 up = some .toSource)
      ∧ (phase dest 22050 8000 1 up = some .placeLower
          ∧ phase { toBay .toDest with destUse := some (.position 2 1) } 22050 8000 1 docked = some .placeLower
          ∧ phase { toBay .toDest with destUse := some (.position 2 2) } 22050 8000 1 docked = some .claimDest)
      ∧ (phase lift 22000 2999 1 loaded = some .lift ∧ phase lift 22000 3000 1 loaded = some .lift
          ∧ phase { lift with lifted := true } 22000 8000 1 loaded = some .lift)
      ∧ (slotRec loaded.smu 24).isSome = true ∧ loaded.wgu.loadClass ≠ .empty ∧ up.wgu.loadClass = .empty
      ∧ phase lift 22000 3000 1 { up with smu := loaded.smu } = none
      ∧ (phase lift 22000 2999 1 stacked = none ∧ phase lift 22000 3000 1 stacked = none
          ∧ phase { lift with lifted := true } 22000 3000 1 stacked = some .lift
          ∧ (after (.positionSample (posBytes 101 22000 5000 3000 1)) stacked).moc.ended.map (·.ending)
              = [.failed .sourceBuried]
          ∧ stackOver demo stacked.smu 24 = [36] ∧ stackOver demo loaded.smu 24 = [])
      ∧ (phase open_ 34000 2800 0 loaded = some .clear ∧ phase open_ 34000 2800 1 loaded = some .opening
          ∧ (slotRec loaded.smu 71).isSome = true)
      ∧ phase (active .clear) 34000 7949 0 up = some .clear ∧ phase (active .clear) 34000 7950 0 up = none :=
  ⟨⟨⟨by decide, by decide +kernel, by decide, fun last h => by cases h; decide⟩, rfl, by unfold ZonesDistinct; decide⟩,
    by decide +kernel, by decide +kernel, by decide +kernel, by decide +kernel, by decide +kernel, by decide,
    by decide +kernel, by decide +kernel, by decide +kernel, by decide +kernel⟩

/-- A grip CLOSED at contact height + 150 and a millimetre above, on a slot that is fit, EMPTY and buried, and on one
that a peer claims, alone and under a stack; and load
samples at which the coil is down within 150 mm of the contact height and above, and up again. -/
theorem witness_GripAndLandingMoveTheOrder :
    let lower : Active := { active .pickLower with contact := some 2800 }
    let onto (c above : Content) : State :=
      withSlot (withSlot { up with moc := (working lower).moc } 24 c (some 1700) none none) 36 above none none none
    let grips (s : State) (z : Int) : Option Phase :=
      (after (.positionSample (posBytes 101 22000 5000 z 1)) s).moc.active.map (·.phase)
    let place (p : Phase) (z : Int) : State :=
      at_ 34000 z .closed { active p with contact := some 2800, destUse := some (.slot 71), lifted := true }
    let lands (p : Phase) (z raw : Int) : Option Phase :=
      (after (.loadCellSample raw false) (place p z)).moc.active.map (·.phase)
    (TakesSample (onto .occupied .empty) (posBytes 101 22000 5000 2950 1) (posFrame 101 22000 5000 2950 1) .closed
        ∧ (onto .occupied .empty).moc.active = some lower)
      ∧ (pickTest (onto .occupied .empty) demo 24 = .eligible ∧ grips (onto .occupied .empty) 2950 = some .lift
          ∧ grips (onto .occupied .empty) 2951 = some .pickLower)
      ∧ (grips (onto .empty .empty) 2950 = none ∧ grips (onto .occupied .unknown) 2950 = none)
      ∧ (let claimed (above : Content) : State :=
           { onto .occupied above with ptb := { up.ptb with peers := [{ peer3 20 with claims := [⟨.slot 24, true, 3, 4900⟩] }] } }
         pickTest (claimed .empty) demo 24 = .claimed 3 ∧ grips (claimed .empty) 2950 = some .lift
          ∧ pickTest (claimed .unknown) demo 24 = .claimed 3 ∧ grips (claimed .unknown) 2950 = none
          ∧ (after (.positionSample (posBytes 101 22000 5000 2950 1)) (claimed .unknown)).moc.ended.map (·.ending)
              = [.failed .sourceBuried])
      ∧ (place .placeLower 2950).rlc.nodeState ≠ .reset ∧ (place .placeLower 2950).sampleStale = false
      ∧ lands .placeLower 2950 209800 = some .opening ∧ (slotRec (place .placeLower 2951).smu 71).isSome = true
      ∧ (after (.loadCellSample 209800 false) (place .placeLower 2951)).moc.active.map (·.excluded) = some [71]
      ∧ lands .placeLower 2950 1523400 = some .placeLower ∧ lands .opening 2950 1523400 = some .placeLower :=
  ⟨⟨⟨by decide, by decide +kernel, by decide, fun last h => by cases h; decide⟩, rfl⟩, by decide +kernel,
    by decide +kernel, by decide +kernel, by decide +kernel, by decide +kernel, by decide +kernel, by decide +kernel,
    by decide +kernel, by decide +kernel⟩

/-- The grip opened over position 1, which takes the coil, and position 2, which is LOADED; a record that is STALE and one at
the version limit; lift-off from position 2, LOADED, with a load and with none, and from position 7, which no truck has. -/
theorem witness_TrailerCommitsChangeTheRecord :
    let place (pos : Nat) : State :=
      { docked with moc := (working { toBay .opening with destUse := some (.position 2 pos) }).moc }
    let takes (pos : Nat) : State :=
      { docked with moc := (working { active .lift with
          ord := { order 1 with source := .bay 2 pos }, gripHeight := some 2800 }).moc }
    let opens (s : State) : Nat := ((after (.positionSample (posBytes 101 60000 15000 2800 0)) s).tbu.trucks.get 2).version
    let lifts (s : State) : Nat := ((after (.positionSample (posBytes 101 60000 15000 3000 1)) s).tbu.trucks.get 2).version
    let requires (s : State) (v : Nat) : State := { s with tbu := { s.tbu with required := s.tbu.required.set 2 v } }
    TakesSample (place 1) (posBytes 101 60000 15000 2800 0) (posFrame 101 60000 15000 2800 0) .opened
      ∧ TakesSample (takes 2) (posBytes 101 60000 15000 3000 1) (posFrame 101 60000 15000 3000 1) .closed
      ∧ (∃ p, trailer.positions[0]? = some p ∧ FitsPosition trailer 14000 [0, 4200, 9800] p 26860)
      ∧ opens (place 1) = 18 ∧ opens (place 2) = 17 ∧ opens (place 7) = 17 ∧ opens (requires (place 1) 18) = 17
      ∧ lifts (takes 2) = 18 ∧ lifts (takes 3) = 17 ∧ lifts (requires (takes 2) 18) = 17
      ∧ lifts { takes 2 with wgu := { up.wgu with loadClass := .loaded } } = 18 ∧ up.wgu.loadClass = .empty :=
  ⟨⟨by decide, by decide +kernel, by decide, fun last h => by cases h; decide⟩,
    ⟨by decide, by decide +kernel, by decide, fun last h => by cases h; decide⟩,
    ⟨_, rfl, by decide, by decide, by decide, fun g h1 h2 => by
      have : g = 1 ∨ g = 2 ∨ g = 3 := by simp [trailer] at h2; omega
      rcases this with rfl | rfl | rfl <;> decide⟩,
    by decide +kernel, by decide +kernel, by decide +kernel, by decide +kernel, by decide +kernel, by decide +kernel,
    by decide +kernel, by decide +kernel, rfl⟩

/-- A slot that passes and one that fails, an area, a bay that takes the coil and one that does not; each skip; with the
alternate taken, with one that fails, and with none. -/
theorem witness_DecideSettlesTheDestination :
    let base : State := { area with tbu := docked.tbu }
    let with_ (a : Active) : State := { base with moc := (working a).moc }
    let settled (a : Active) : Option (Phase × Option DestUse) :=
      (serveWork (with_ a) .decide).moc.active.map fun b => (b.phase, b.destUse)
    let aim (d : Dest) (alt : Option Dest) : Active :=
      { toBay .decide with coil := { id := some 5501, weight := some 18400, diameter := some 1700, width := some 1250 },
                           ord := { order 1 with dest := d, alt := alt } }
    let bad : WeighResult := ⟨.order 1 none none, .stable, some 26860, 20, .mismatch⟩
    (base.cpt.image = some demo ∧ ZonesDistinct demo ∧ (aim (.bay 2) none).phase = .decide)
      ∧ settled (aim (.bay 2) none) = some (.claimDest, some (.position 2 1))
      ∧ settled { aim (.bay 2) none with bayExcluded := true } = some (.holdLoad, none)
      ∧ (settled { aim (.slot 71) (some (.bay 2)) with result := some bad } = some (.claimDest, some (.position 2 1))
          ∧ settled { aim (.bay 2) (some (.slot 1)) with primaryDropped := true } = some (.holdLoad, none))
      ∧ (candidateFail base demo (wantedOf (aim (.slot 1) none)) 1 ≠ none ∧ settled (aim (.slot 1) none) = some (.holdLoad, none))
      ∧ settled { aim (.area 3 5 (some .any)) none with result := none } = some (.claimDest, some (.slot 71))
      ∧ settled { aim (.slot 71) none with result := none } = some (.claimDest, some (.slot 71)) :=
  ⟨⟨rfl, by unfold ZonesDistinct; decide, rfl⟩, by decide +kernel, by decide +kernel, by decide +kernel,
    by decide +kernel, by decide +kernel, by decide +kernel⟩

/-- The source slot UNKNOWN, buried or fit; the destination slot fit and not; the source bay's and the destination bay's record
changed; and a NOTICE that puts a coil on the stack above the source. -/
theorem witness_ChangesAreTestedAgain :
    let bare24 : State := withSlot (withSlot up 24 .occupied (some 1700) none none) 36 .empty none none none
    let with_ (s : State) (a : Active) : State := { s with moc := (working a).moc }
    let phase (s : State) (w : Work) : Option Phase := (serveWork s w).moc.active.map (·.phase)
    let dest : Active := { active .toDest with destUse := some (.slot 71), destPlace := some ⟨34000, 5000, 400⟩, lifted := true }
    let from2 (pos : Nat) : Active := { active .toSource with ord := { order 1 with source := .bay 2 pos } }
    let to2 : Active := { toBay .toDest with destUse := some (.position 2 1), destPlace := some ⟨0, 0, 0⟩ }
    let place : Notice := ⟨1, 36, .place, {}⟩
    let s := with_ bare24 { active .pickLower with contact := some 2800 }
    (phase (with_ up (active .toSource)) (.slotChanged 24) = none
        ∧ phase (with_ bare24 (active .toSource)) (.slotChanged 24) = some .toSource
        ∧ phase (with_ row2 (active .lift)) (.slotChanged 24) = none
        ∧ (let blocked (s : State) : State :=
             { s with smu := putSlot s.smu 24 { SlotRec.fresh with content := .occupied, blocked := true } }
           phase (with_ (blocked bare24) (active .lift)) (.slotChanged 24) = some .lift
            ∧ phase (with_ (blocked row2) (active .lift)) (.slotChanged 24) = some .lift
            ∧ phase (with_ row2 { active .lift with lifted := true }) (.slotChanged 24) = some .lift))
      ∧ (phase (with_ up dest) (.slotChanged 71) = some .decide ∧ phase (with_ area dest) (.slotChanged 71) = some .toDest)
      ∧ (phase (with_ docked (from2 2)) (.bayChanged 2) = some .toSource
          ∧ phase (with_ docked (from2 1)) (.bayChanged 2) = none ∧ phase (with_ docked (from2 4)) (.bayChanged 2) = none)
      ∧ (phase (with_ docked to2) (.bayChanged 2) = some .toDest ∧ phase (with_ up to2) (.bayChanged 2) = some .decide)
      ∧ (Routed s 6 88 (.notice place) ∧ s.rlc.nodeState ≠ .config ∧ s.work = [] ∧ ClaimsOk s.clu ∧ s.moc.waiting = []
          ∧ peerAt s.ptb 6 = none ∧ trackAt s.smu 6 = none ∧ s.ptb.peers = []
          ∧ s.cpt.image = some demo ∧ slotExists demo 24 = true
          ∧ (slotRec s.smu 24).map (fun r => (r.content, r.blocked)) = some (.occupied, false)
          ∧ (slotPos 24).upper = false ∧ uppersOver demo 2 1 = [36] ∧ stackOver demo s.smu 24 = []
          ∧ (after (.rxNotice 6 88 place) (with_ bare24 (active .lift))).moc.active = none
          ∧ (slotRec s.smu 36).map (·.content) = some .empty
          ∧ (after (.rxNotice 6 88 place) s).moc.active = none) :=
  ⟨by decide +kernel, by decide +kernel, by decide +kernel, by decide +kernel,
    ⟨by unfold Routed; decide +kernel, by decide, rfl, by unfold ClaimsOk; decide, rfl, by decide, by decide +kernel, rfl, rfl,
      by decide, by decide +kernel, by decide, by decide +kernel, by decide +kernel, by decide +kernel, by decide +kernel,
      by decide +kernel⟩⟩

/-- Every phase that waits, its claims HELD and not: a source slot that is fit, UNKNOWN and claimed by a peer, a source bay;
a destination slot whose claim waits; a bay position that takes the coil and one that does not; 50 and 51 mm from the
place; and 50 and 51 mm below travel height. -/
theorem witness_HeldClaimsMoveTheOrder :
    let fit (s : State) : State := withSlot (withSlot s 24 .occupied (some 1700) none none) 36 .empty none none none
    let runs (s : State) (a : Active) (st : ClaimState) : Option Phase :=
      let cs := (a.srcClaims ++ a.destClaims).map fun t => claimOn t st
      (serveWork { s with moc := (working a).moc, clu := { up.clu with claims := cs } } .progress).moc.active.map (·.phase)
    let bay2 : Active :=
      { active .claimSource with ord := { order 1 with source := .bay 2 2 }, srcClaims := [.zone 2] }
    let dest : Active := { active .claimDest with
      destUse := some (.slot 71), destPlace := some ⟨34000, 5000, 400⟩, srcClaims := [], destClaims := [.slot 71] }
    let to2 (p : Phase) (pos : Nat) : Active :=
      { toBay p with destUse := some (.position 2 pos), srcClaims := [], destClaims := [.zone 2] }
    let claimed : State := fit (near (peerOn (.slot 24) true 3))
    let stand (s : State) (x z : Int) : State := { s with cpt := { s.cpt with held := some (still x 5000 z .opened) } }
    (up.cpt.image = some demo ∧ ZonesDistinct demo)
      ∧ (pickTest (fit up) demo 24 = .eligible ∧ runs (fit up) (active .claimSource) .held = some .toSource
          ∧ runs (fit up) (active .claimSource) .asking = some .claimSource
          ∧ runs up (active .claimSource) .held = none ∧ runs claimed (active .claimSource) .held = some .claimSource
          ∧ runs docked bay2 .held = some .toSource)
      ∧ (runs up dest .waiting = some .decide ∧ runs up dest .asking = some .claimDest ∧ runs up dest .held = some .toDest)
      ∧ (runs docked (to2 .claimDest 1) .held = some .toDest ∧ runs docked (to2 .claimDest 2) .held = some .decide
          ∧ runs docked (to2 .claimDest 1) .waiting = some .claimDest)
      ∧ (runs (stand up 22050 8000) (active .toSource) .held = some .pickLower
          ∧ runs (stand up 22051 8000) (active .toSource) .held = some .toSource)
      ∧ (runs (stand up 22050 8000) { dest with phase := .toDest } .held = some .placeLower
          ∧ runs (stand docked 22050 8000) (to2 .toDest 1) .held = some .placeLower
          ∧ runs (stand docked 22050 8000) (to2 .toDest 2) .held = some .decide)
      ∧ (runs (stand up 0 7950) (active .clear) .held = none ∧ runs (stand up 0 7949) (active .clear) .held = some .clear
          ∧ runs up (active .holdLoad) .held = some .holdLoad) :=
  ⟨⟨rfl, by unfold ZonesDistinct; decide⟩, by decide +kernel, by decide +kernel, by decide +kernel, by decide +kernel,
    by decide +kernel, by decide +kernel⟩

/-- R179: on the way from 150,000 to row 2 the bay's zone lies nearer than zone 1; where a truck request already holds it, both
are asked at one sample, and where it is not in the list, the bay's zone alone. -/
theorem test_transit_next_when_held :
    let way (cs : List OwnClaim) : State :=
      { at_ 150000 8000 .opened (active .toSource) with clu := { up.clu with claims := claimOn (.slot 24) .held :: cs } }
    let asked (s : State) : List (Target × ClaimState) :=
      (after (.positionSample (posBytes 101 150000 5000 8000 0)) s).clu.claims.map fun c => (c.target, c.state)
    asked (way [{ claimOn (.zone 2) .held with holders := [.truck 2] }])
        = [(.slot 24, .held), (.zone 2, .held), (.zone 1, .asking)]
      ∧ asked (way []) = [(.slot 24, .held), (.zone 2, .asking)] := by decide +kernel

/-- A source claim, a destination slot and a destination bay that leave HELD, and a transit zone; an ask refused and made
again; and results of 999 and 1,000 kg before lift-off, of a session before it and of the one opened at it. -/
theorem witness_LostClaimsAndResultsReachTheOrder :
    let phase (a : Active) (w : Work) : Option Phase := (serveWork (working a) w).moc.active.map (·.phase)
    let lost (a : Active) (t : Target) : Option Phase := phase a (.orderClaim 1 t .waiting true)
    let dest (p : Phase) (t : Target) (d : DestUse) : Active :=
      { active p with destUse := some d, srcClaims := [], destClaims := [t], lifted := true }
    let full : State := { up with clu := { up.clu with claims := [25, 26, 27, 36, 37, 71].map fun id => claimOn (.slot id) .held } }
    let again : Active := { active .claimSource with askRefused := true }
    let r (w : Nat) : WeighResult := ⟨.order 1 (some 5501) (some 26860), .stable, some w, 20, .agrees⟩
    let result (a : Active) (w : Nat) (atLiftOff : Bool) : Option Active :=
      (serveWork (working a) (.weighResult (r w) atLiftOff)).moc.active
    let air : Active := { active .lift with lifted := true }
    (up.cpt.image = some demo ∧ targetOk demo (.slot 24) = true ∧ targetOk demo (.slot 71) = true
        ∧ targetOk demo (.zone 2) = true)
      ∧ lost (active .toSource) (.slot 24) = some .claimSource
      ∧ (lost (dest .toDest (.slot 71) (.slot 71)) (.slot 71) = some .decide
          ∧ lost (dest .claimDest (.slot 71) (.slot 71)) (.slot 71) = some .decide)
      ∧ (lost (dest .toDest (.zone 2) (.position 2 1)) (.zone 2) = some .claimDest
          ∧ lost (dest .claimDest (.zone 2) (.position 2 1)) (.zone 2) = some .claimDest)
      ∧ (lost (active .pickLower) (.slot 24) = some .pickLower ∧ lost (active .toSource) (.zone 1) = some .toSource)
      ∧ ((serveWork { full with moc := (working again).moc } .claimRemoved).moc.active.map (·.askRefused) = some true
          ∧ (serveWork (working again) .claimRemoved).clu.claims.map (·.target) = [.slot 24])
      ∧ (result (active .lift) 1000 false = some { active .lift with result := some (r 1000) }
          ∧ result (active .lift) 999 false = some (active .lift) ∧ result air 26860 false = some air
          ∧ (result air 999 true).map (·.phase) = some .decide ∧ result (active .decide) 1000 true = some (active .decide)) := by
  decide +kernel

/-! ## Witnesses: requests -/

theorem up_takes {r : Request} {s : State} (h : s = asks up r) : TakesNow s ⟨5, []⟩ r := by
  subst h
  exact takesNow_of_head ⟨by show NodeState.running ≠ .reset; decide, rfl, by show 0 < 8; decide⟩ rfl

/-- A request that is taken, one in a state that does not accept it, a repeat, and a frame to be answered BAD_ARG. -/
theorem witness_RequestsAreAnsweredOnce :
    TakesNow (asks up .park) ⟨5, []⟩ .park ∧ (TakesNow (asks bare .park) ⟨5, []⟩ .park ∧ acceptedIn .park bare.rlc.nodeState = false)
      ∧ (let a : Answered := { kind := .park, tag := ⟨5, []⟩, response := responseTo ⟨5, []⟩ .park .ok .none .none }
         let s : State := { asks up .park with cpt := { (asks up .park).cpt with lastReq := some a } }
         AtHead s ⟨5, []⟩ .park ∧ isRead (reqKind .park) = false ∧ s.cpt.lastReq = some a ∧ a.kind = .park ∧ a.tag = ⟨5, []⟩)
      ∧ (let s : State := { up with cpt := { up.cpt with reqBuf := [.bad 5 (.unknown 99) .unknownKind] } }
         s.rlc.nodeState ≠ .reset ∧ s.cpt.reqBuf.head? = some (.bad 5 (.unknown 99) .unknownKind)
          ∧ waitingOut isResponse s.cpt.out < 8) :=
  ⟨takesNow_of_head (by decide) rfl, ⟨takesNow_of_head (by decide) rfl, rfl⟩, by unfold AtHead; decide +kernel,
    by decide +kernel⟩

/-- The demonstration image passes; and, each changed by one value, the check and the field that fail: an index of each shape,
a value missing and one out of range, the extents, z range and travel height, zones, and the seven geometry checks. -/
theorem witness_StartChecksTheImageInOrder :
    let fails (es : List (Param × Int)) : Option (Param × ImageCheck) :=
      (imageFail (es.foldl (fun d e => draftPut d e.1 e.2) draft))
    let cases : List (List (Param × Int) × (Param × ImageCheck)) := [
        ([(.zoneCount, 17)], (.zoneCount, .range)), ([(.zoneCount, 3)], (.zoneKind 3, .missing)),
        ([(.lowerCount 5, 13)], (.lowerCount 5, .range)), ([(.lowerCount 1, 5)], (.laneY 1 5, .missing)),
        ([(.reaction, 1001), (.division, 30)], (.reaction, .range)), ([(.division, 30)], (.division, .range)),
        ([(.runwayLength, 20000), (.leftExtent, 10000), (.rightExtent, 10000)], (.leftExtent, .extents)),
        ([(.zMin, 9000)], (.zMin, .zRange)), ([(.travelHeight, 9001)], (.travelHeight, .travelHeight)),
        ([(.zoneXEnd 1, 100000)], (.zoneXEnd 1, .zone)), ([(.zoneXStart 2, 110000)], (.zoneXStart 2, .zone)),
        ([(.zoneBay 2, 5)], (.zoneBay 2, .zone)), ([(.rowHalf 2, 499)], (.rowHalf 2, .geometry 1)),
        ([(.saddleMax, 2201)], (.saddleMax, .geometry 2)), ([(.rowCentre 1, 1499)], (.rowCentre 1, .geometry 3)),
        ([(.rowCentre 2, 17000)], (.rowCentre 2, .geometry 4)), ([(.laneY 1 1, 999)], (.laneY 1 1, .geometry 5)),
        ([(.laneY 1 2, 7000)], (.laneY 1 2, .geometry 6)), ([(.zMax, 6699), (.travelHeight, 6000)], (.zMax, .geometry 7)) ]
    imageFail draft = none
      ∧ (∀ q ∈ cases, fails q.1 = some q.2)
      ∧ (indexOk (.zoneKind 16) = true ∧ indexOk (.zoneBay 17) = false ∧ indexOk (.rowHalf 40) = true ∧ indexOk (.rowCentre 0) = false
          ∧ indexOk (.laneY 40 12) = true ∧ indexOk (.laneY 40 13) = false) := by decide +kernel

/-- Each form of an order at its limits; and truck contents failing each row of R153, with the edges of allowance, groups,
shares and places. -/
theorem witness_ArgumentsAndContentsAreChecked :
    let zn : Zone := ⟨2, .truckBay, 120000, 136000, 0, 0, 0, 2⟩
    let o := order 65535
    let p : Position :=
      { share1 := 100, share2 := 500, share3 := 400, maxKg := 60000, xOffset := 16000, y := 30000, loaded := false,
        coilId := none, weight := none }
    let one (p : Position) : TruckData := { trailer with positions := [p], plan := [1] }
    let arrives (d : TruckData) : Option ContentFail := arriveFail demo zn d
    (bayZone demo 2 = some zn ∧ bayZone demo 1 = none)
      ∧ (destOk demo (.slot 71) = true ∧ destOk demo (.slot 5) = false ∧ destOk demo (.area 5 5 (some .any)) = true
          ∧ destOk demo (.area 4 3 (some .any)) = false ∧ destOk demo (.area 1 6 (some .any)) = false
          ∧ destOk demo (.area 1 5 none) = false ∧ destOk demo (.bay 2) = true ∧ destOk demo (.bay 3) = false)
      ∧ (orderOk demo o = true ∧ orderOk demo { o with id := 65536 } = false ∧ orderOk demo { o with prio := 8 } = false
          ∧ orderOk demo { o with diameter := some 2201 } = false ∧ orderOk demo { o with dest := .slot 24 } = false
          ∧ orderOk demo { o with kind := some .load, dest := .bay 2 } = true
          ∧ orderOk demo { o with kind := some .store, source := .bay 2 6, dest := .area 1 5 (some .lowerOnly) } = true
          ∧ orderOk demo { o with kind := some .unload, source := .bay 2 7, dest := .area 1 5 (some .any) } = false
          ∧ orderOk demo { o with kind := none } = false ∧ orderOk demo { o with alt := some (.bay 2) } = false)
      ∧ (buriedAt row2 demo o = some [36] ∧ buriedAt up demo o = none)
      ∧ (increment p 26861 1 = 2687 ∧ increment p 26860 1 = 2686 ∧ increment p 0 1 = 0)
      ∧ (arrives trailer = none ∧ arrives (one p) = none ∧ arrives { one p with allowance := 0 } = some .allowance
          ∧ arrives { one p with deckHeight := 2501 } = some .allowance ∧ arrives { one p with limits := [] } = some .groups
          ∧ arrives { trailer with positions := [] } = some .positionCount ∧ arrives { one p with limits := [1, 1] } = some .shares
          ∧ arrives (one { p with share1 := 101 }) = some .shares ∧ arrives (one { p with xOffset := 16001 }) = some .positionPlace
          ∧ arrives { one p with plan := [2] } = some .planOrder ∧ arrives (one { p with loaded := true }) = some .loadedFields
          ∧ arrives { trailer with allowance := 13999 } = some .overLimit)
      ∧ (stateFail demo zn (.present true trailer 14000 [0, 4200, 9800]) = none
          ∧ stateFail demo zn (.present true trailer 14000 [0, 4200, 9801]) = some .sums ∧ stateFail demo zn .noTruck = none) := by
  decide +kernel

/-- A good CONFIGURE, one with a parameter twice, and START with a complete image, an empty one, and peers known. -/
theorem witness_ConfigureAndStart :
    let es : List ConfigEntry := [{ param := some .zMax, value := 9000 }]
    let ready : State := { asks bare .start with cpt := { (asks bare .start).cpt with draft := draft } }
    TakesNow (asks bare (.configure es)) ⟨5, []⟩ (.configure es) ∧ bare.rlc.nodeState = .config ∧ configFail es = none
      ∧ configFail (es ++ es) ≠ none ∧ configFail (List.replicate 65 { param := some .zMax, value := 9000 }) ≠ none
      ∧ TakesNow ready ⟨5, []⟩ .start ∧ ready.rlc.nodeState = .config ∧ imageFail ready.cpt.draft = none
      ∧ imageFail (asks bare .start).cpt.draft = some (.zoneCount, .missing) ∧ PeersOk ready :=
  ⟨takesNow_of_head (by decide +kernel) rfl, rfl, by decide, by decide, by decide,
    takesNow_of_head (by decide +kernel) rfl, rfl, by decide +kernel, by decide +kernel,
    by decide, by decide, by decide, by decide⟩

/-- RESTART with and without an image, by straps of both kinds; PARK refused twice, taken, and taken with a bay's claim HELD; UNPARK. -/
theorem witness_RestartParkAndUnpark :
    TakesNow (asks up .restart) ⟨5, []⟩ .restart ∧ (asks up .restart).work = [] ∧ (asks up .restart).cpt.image ≠ none
      ∧ TakesNow (asks bare .restart) ⟨5, []⟩ .restart ∧ (asks bare .restart).cpt.image = none
      ∧ TakesNow (asks up .park) ⟨5, []⟩ .park ∧ up.rlc.nodeState = .running ∧ up.moc.active = none ∧ up.wgu.loadClass = .empty
      ∧ TakesNow (asks (working (active .toSource)) .park) ⟨5, []⟩ .park ∧ (working (active .toSource)).moc.active ≠ none
      ∧ TakesNow (asks { up with wgu := { up.wgu with loadClass := .loaded } } .park) ⟨5, []⟩ .park
      ∧ (let s : State := { asks up .park with clu := { up.clu with claims := [claimOn (.zone 2) .held] } }
         TakesNow s ⟨5, []⟩ .park ∧ ownBay s (.zone 2) = some 2
          ∧ ((after .park s).rlc.truckWin.get 2).map (·.release) = some true)
      ∧ (let s : State := { asks up .unpark with rlc := { up.rlc with nodeState := .parked } }
         TakesNow s ⟨5, []⟩ .unpark ∧ s.rlc.nodeState = .parked ∧ s.rlc.queue.length < 16) :=
  ⟨takesNow_of_head (by decide) rfl, rfl, by decide +kernel, takesNow_of_head (by decide) rfl, rfl,
    takesNow_of_head (by decide) rfl, rfl, rfl, rfl, takesNow_of_head (by decide) rfl, by decide,
    takesNow_of_head (by decide) rfl, ⟨takesNow_of_head (by decide) rfl, by decide +kernel, by decide +kernel⟩,
    takesNow_of_head (by decide) rfl, rfl, by decide⟩

/-- SUBMIT_ORDER by each test of R175 in turn: a bad argument, a known id, a full queue, a buried source, and none. -/
theorem witness_SubmitOrder :
    let o := order 1
    let full : State := { up with moc := { up.moc with waiting := [2, 3, 4, 5, 6, 7, 8, 9].map order } }
    (∀ r, TakesNow (asks up r) ⟨5, []⟩ r) ∧ up.rlc.nodeState = .running ∧ up.cpt.image = some demo
      ∧ orderOk demo { o with id := 0 } = false ∧ orderOk demo o = true
      ∧ 1 ∈ queueIds (working (active .toSource)).moc
      ∧ (1 ∉ queueIds full.moc ∧ 8 ≤ (queueIds full.moc).length) ∧ (queueIds up.moc).length < 8
      ∧ buriedAt row2 demo o = some [36] ∧ buriedAt up demo o = none :=
  ⟨fun _ => up_takes rfl, rfl, rfl, by decide +kernel, by decide +kernel, by decide,
    by decide, by decide, by decide +kernel, by decide +kernel⟩

/-- CANCEL_ORDER of an absent, a waiting and an active order: ending, lifted with and without an alternate, not lifted.
REDIRECT of a bad destination, an absent order, one that is not held, and one that is. -/
theorem witness_OrderRequestsChangeTheQueue :
    let held : Active := { active .holdLoad with lifted := true }
    let going : Active := { active .toDest with lifted := true, destClaims := [.slot 71] }
    let claim : OwnClaim := claimOn (.slot 71) .held
    (∀ (s : State) r, s.rlc.nodeState = .running → s.cpt.out = [] → s.cpt.lastReq = none → TakesNow (asks s r) ⟨5, []⟩ r)
      ∧ 1 ∉ queueIds up.moc
      ∧ (({ up.moc with waiting := [order 2] } : Moc).waiting.find? fun q => q.id == 2) = some (order 2)
      ∧ (working (active .clear)).moc.active = some (active .clear) ∧ (active .clear).ord.id = 1
      ∧ (held.lifted = true ∧ held.ord.alt ≠ none ∧ held.primaryDropped = false ∧ held.phase = .holdLoad)
      ∧ (going.lifted = true ∧ going.phase = .toDest ∧ going.primaryDropped = false ∧ .slot 71 ∉ going.srcClaims
          ∧ going.transit = [] ∧ claim.holders = [.order]
          ∧ findClaim { working going with clu := { up.clu with claims := [claim] } } (.slot 71) = some claim)
      ∧ { held with primaryDropped := true }.primaryDropped = true ∧ (active .toSource).lifted = false
      ∧ destOk demo (.slot 0) = false ∧ destOk demo (.area 3 5 (some .any)) = true
      ∧ (active .toSource).phase ≠ .holdLoad ∧ 1 ∈ queueIds (working held).moc :=
  ⟨fun s r h ho hn => takesNow_of_head ⟨by simp [asks, h], rfl, by simp [asks, ho, waitingOut]⟩ hn,
    by decide, by decide, by decide, by decide, by decide, by decide +kernel,
    by decide, by decide, by decide +kernel, by decide +kernel,
    by decide, by decide⟩

/-- A head order whose source slot is fit, claimed by a peer, and UNKNOWN; one from a bay, fresh and STALE, and from a
position that is not LOADED; a claim list that is full; and a node that is PARKED. -/
theorem witness_ActivationTestsTheHeadOrder :
    let fit (s : State) : State := withSlot (withSlot s 24 .occupied (some 1700) none none) 36 .empty none none none
    let waits (s : State) (src : Source) : State :=
      { s with moc := { s.moc with waiting := [{ order 2 with source := src, weight := none }, order 3] } }
    let runs (s : State) (src : Source) : Option (Phase × Option Nat) :=
      (serveWork (waits s src) .activate).moc.active.map fun b => (b.phase, b.coil.weight)
    let stale : State := { docked with tbu := { docked.tbu with required := docked.tbu.required.set 2 18 } }
    let full : State := { up with clu := { up.clu with claims := [25, 26, 27, 36, 37, 71].map fun id => claimOn (.slot id) .held } }
    let parked : State := { up with rlc := { up.rlc with nodeState := .parked } }
    (up.rlc.nodeState = .running ∧ up.cpt.image = some demo ∧ ZonesDistinct demo ∧ up.moc.active = none)
      ∧ (pickTest (fit up) demo 24 = .eligible ∧ runs (fit up) (.slot 24) = some (.claimSource, none)
          ∧ runs (fit (near (peerOn (.slot 24) true 3))) (.slot 24) = some (.claimSource, none))
      ∧ (runs up (.slot 24) = none ∧ (serveWork (waits up (.slot 24)) .activate).moc.waiting = [order 3]
          ∧ ((serveWork (waits up (.slot 24)) .activate).moc.ended.map (·.ending)) = [.failed .sourceNotOccupied])
      ∧ (runs docked (.bay 2 2) = some (.claimSource, some 14000) ∧ runs stale (.bay 2 2) = some (.claimSource, some 14000)
          ∧ runs docked (.bay 2 1) = none)
      ∧ (serveWork (waits (fit full) (.slot 24)) .activate).moc.active.map (·.askRefused) = some true
      ∧ serveWork (waits parked (.slot 24)) .activate = waits parked (.slot 24) :=
  ⟨⟨rfl, rfl, by unfold ZonesDistinct; decide, rfl⟩, by decide +kernel, by decide +kernel, by decide +kernel,
    by decide +kernel, by decide +kernel⟩

/-- A truck request by each test of R156 in turn, and a pending one at its timeout. -/
theorem witness_TruckRequestsWaitForTheirClaim :
    let q : TruckReq := { kind := .ready, acceptedAt := 1000, newer := false }
    let pend : State := { up with tbu := { up.tbu with requests := up.tbu.requests.set 2 (some q) } }
    let full : State := { up with clu := { up.clu with claims := [24, 25, 26, 27, 36, 37].map fun id => claimOn (.slot id) .held } }
    let loads : State := working { active .toDest with ord := { order 1 with dest := .bay 2 } }
    TakesNow (asks up (.truckReady 2)) ⟨5, []⟩ (.truckReady 2) ∧ up.rlc.nodeState = .running
      ∧ (∃ img, up.cpt.image = some img ∧ bayZone img 1 = none)
      ∧ (up.cpt.image = some demo ∧ bayZone demo 2 = some ⟨2, .truckBay, 120000, 136000, 0, 0, 0, 2⟩)
      ∧ pend.tbu.requests.get 2 = some q ∧ up.tbu.requests.get 2 = none ∧ usesBay loads.moc 2 = true
      ∧ (findClaim full (.zone 2) = none ∧ 6 ≤ full.clu.claims.length)
      ∧ (findClaim up (.zone 2) = none ∧ up.clu.claims.length < 6 ∧ targetOk demo (.zone 2) = true) :=
  ⟨takesNow_of_head (by decide) rfl, rfl, ⟨demo, rfl, by decide⟩, ⟨rfl, by decide⟩, by decide, by decide, by decide +kernel,
    by decide, by decide⟩

/-- The trailer of bay 2 at a version, with a request for it pending and the bay's claim in a state. -/
def asking2 (k : TruckReqKind) (st : ClaimState) (version required : Nat) (c : TruckContent) : State :=
  { up with
    tbu := { up.tbu with
      trucks := up.tbu.trucks.set 2 { version := version, content := c }, required := up.tbu.required.set 2 required,
      requests := up.tbu.requests.set 2 (some { kind := k, acceptedAt := 4700, newer := false }) },
    clu := { up.clu with claims := [{ claimOn (.zone 2) st with holders := [.truck 2] }] } }

/-- Each kind of request against NO_TRUCK, PRESENT_HOLD and READY; a bay that is STALE; the version limit; a claim not yet
HELD; and the end of its settle timer. -/
theorem witness_TruckRequestsAreApplied :
    let truck (ready : Bool) : TruckContent := .present ready trailer 14000 [0, 4200, 9800]
    let version (s : State) : Nat := (s.tbu.trucks.get 2).version
    let served (k : TruckReqKind) (c : TruckContent) : Nat := version (serveWork (asking2 k .held 17 0 c) (.truckClaim 2))
    (up.cpt.image = some demo ∧ bayZone demo 2 = some ⟨2, .truckBay, 120000, 136000, 0, 0, 0, 2⟩ ∧ ZonesDistinct demo
        ∧ claimState (asking2 .ready .held 17 0 .noTruck) (.zone 2) = some .held ∧ up.work = [] ∧ up.moc.active = none
        ∧ up.ptb.peers = [] ∧ up.rlc.nodeState = .running)
      ∧ (served (.arrive trailer) .noTruck = 18 ∧ served (.arrive { trailer with plan := [1, 1, 3] }) .noTruck = 17
          ∧ served (.arrive trailer) (truck true) = 17)
      ∧ (served .ready (truck false) = 18 ∧ served .ready (truck true) = 17 ∧ served .ready .noTruck = 17)
      ∧ (served .hold (truck true) = 18 ∧ served .hold (truck false) = 17 ∧ served .hold .noTruck = 17)
      ∧ (served .depart (truck true) = 18 ∧ served .depart .noTruck = 17)
      ∧ version (serveWork (asking2 .hold .held 17 18 (truck true)) (.truckClaim 2)) = 17
      ∧ version (serveWork (asking2 .depart .held 17 18 (truck true)) (.truckClaim 2)) = 19
      ∧ (version (serveWork (asking2 .hold .held 65534 0 (truck true)) (.truckClaim 2)) = 65535
          ∧ version (serveWork (asking2 .hold .held 65535 0 (truck true)) (.truckClaim 2)) = 65535)
      ∧ claimState (asking2 .hold .asking 17 0 (truck true)) (.zone 2) ≠ some .held
      ∧ version (after (.settleTimerExpiry (.zone 2)) (asking2 .hold .asking 17 0 (truck true))) = 18 :=
  ⟨⟨rfl, by decide, by unfold ZonesDistinct; decide, by decide +kernel, rfl, rfl, rfl, rfl⟩, by decide +kernel,
    by decide +kernel, by decide +kernel, by decide +kernel, by decide +kernel, by decide +kernel, by decide +kernel,
    by decide +kernel, by decide +kernel⟩

/-- MAP_LOAD of an absent slot, a bad coil, a blocked slot and a good one; SLOT_BLOCK with and without a change;
CLAIM_FORCE_CLEAR of the own number, of no record, of a LIVE and of a LOST peer. -/
theorem witness_MapAndClaimRequests :
    let r : Request := .mapLoad 24 (some .occupied) { diameter := some 2200 }
    let blocked : State := { up with smu := putSlot up.smu 24 { SlotRec.fresh with blocked := true } }
    let lost : Peer := { peer3 0 with liveness := .lost }
    TakesNow (asks up r) ⟨5, []⟩ r ∧ up.rlc.nodeState = .running ∧ up.cpt.image = some demo
      ∧ slotRec up.smu 0 = none ∧ slotRec up.smu 24 = some SlotRec.fresh
      ∧ coilInRange demo { diameter := some 2200 } = true ∧ coilInRange demo { diameter := some 2201 } = false
      ∧ (slotRec blocked.smu 24).map (·.blocked) = some true
      ∧ TakesNow (asks up (.slotBlock 24)) ⟨5, []⟩ (.slotBlock 24) ∧ TakesNow (asks up (.slotUnblock 24)) ⟨5, []⟩ (.slotUnblock 24)
      ∧ SlotRec.fresh.blocked = false ∧ TakesNow (asks up (.claimForceClear 3)) ⟨5, []⟩ (.claimForceClear 3)
      ∧ (1 ≤ 3 ∧ 3 ≤ 8 ∧ up.rlc.craneNo ≠ some 3) ∧ up.rlc.craneNo = some 2 ∧ peerAt up.ptb 3 = none
      ∧ peerAt (near (peer3 0)).ptb 3 = some (peer3 0) ∧ (peer3 0).liveness ≠ .lost
      ∧ peerAt (near lost).ptb 3 = some lost ∧ lost.liveness = .lost :=
  ⟨takesNow_of_head (by decide) rfl, rfl, rfl, by decide +kernel, by decide +kernel, by decide, by decide,
    by decide +kernel, takesNow_of_head (by decide) rfl, takesNow_of_head (by decide) rfl, rfl,
    takesNow_of_head (by decide) rfl, by decide, rfl, by decide, by decide, by decide, by decide, rfl⟩

/-- The verify requests by each test of R148 and R149: a lost cell, a capture, an active order, a moving and a loaded hook,
and none of them; the masses 1,000 and 1,010. -/
theorem witness_WeighVerifyRequests :
    let moving : State := { up with cpt := { up.cpt with held := some { still 0 0 8000 .opened with vz := 20 } } }
    let lost : State := { up with wgu := { up.wgu with base := .locked .sensor } }
    let busy : State := { up with wgu := { up.wgu with capture := some ⟨.auto, 0, 0, 0⟩ } }
    let zeroed : State := { up with wgu := { up.wgu with base := .verifyZeroDone } }
    TakesNow (asks up .weighVerifyZero) ⟨5, []⟩ .weighVerifyZero ∧ up.rlc.nodeState = .running
      ∧ lost.wgu.base = .locked .sensor ∧ busy.wgu.capture ≠ none ∧ (working (active .toSource)).moc.active ≠ none
      ∧ 20 ≤ |moving.sample.vz| ∧ (hookAt 8000 up).sample.grip ≠ .opened
      ∧ (up.wgu.base ≠ .locked .sensor ∧ up.wgu.capture = none ∧ up.wgu.session = none ∧ up.moc.active = none
          ∧ up.sampleStale = false ∧ |up.sample.vz| < 20 ∧ up.sample.grip = .opened ∧ up.wgu.loadClass = .empty)
      ∧ TakesNow (asks zeroed (.weighVerifySpan 1000)) ⟨5, []⟩ (.weighVerifySpan 1000) ∧ up.cpt.image = some demo
      ∧ (1000 ≤ 1000 ∧ (1000 : Int) % demo.division = 0) ∧ (1010 : Int) % demo.division ≠ 0
      ∧ zeroed.wgu.base = .verifyZeroDone :=
  ⟨takesNow_of_head (by decide) rfl, rfl, rfl, by decide, by decide, by decide, by decide, by decide,
    takesNow_of_head (by decide) rfl, rfl, by decide, by decide, rfl⟩

/-- Every read is taken; a slot that exists and one that does not, a stream in progress, a peer, a bay with and without a
zone, and orders active, waiting, ended and absent. -/
theorem witness_ReadsAnswerWithTheState :
    (∀ r, TakesNow (asks up r) ⟨5, []⟩ r)
      ∧ (slotPlace demo 24).isSome = true ∧ (slotRec up.smu 24).isSome = true ∧ slotExists demo 5 = false
      ∧ 1 ≤ min 920 up.smu.slots.length ∧ min 920 bare.smu.slots.length = 0 ∧ up.cpt.stream = none
      ∧ ({ up.cpt with stream := some ⟨5, 1, 1, 8⟩ } : Cpt).stream ≠ none
      ∧ up.rlc.craneNo ≠ some 3 ∧ up.rlc.craneNo = some 2 ∧ bayZone demo 1 = none
      ∧ bayZone demo 2 = some ⟨2, .truckBay, 120000, 136000, 0, 0, 0, 2⟩
      ∧ (active .toSource).ord.id = 1 ∧ ([order 2].find? fun o => o.id == 2) = some (order 2)
      ∧ ([(⟨order 3, .done, none, none⟩ : Ended)].find? fun e => e.ord.id == 3) = some ⟨order 3, .done, none, none⟩ :=
  ⟨fun _ => up_takes rfl, by decide +kernel, by decide +kernel, by decide, by decide,
    by decide, rfl, by decide, by decide, rfl, by decide, by decide, rfl, by decide, by decide⟩

/-- The next id at or after the walk's, the wrap to the lowest, 7 and 8 stream records waiting, a response and another
record at the front; and a TARGET and a PERMIT of zeros by the tables of 10.3. -/
theorem witness_StreamRecordsAndSending :
    let s (next : Nat) : State := { up with cpt := { up.cpt with stream := some ⟨5, next, 1, 8⟩ } }
    (s 106).cpt.stream = some ⟨5, 106, 1, 8⟩ ∧ waitingOut isStream (s 106).cpt.out < 8
      ∧ ((s 106).smu.slots.map (·.id)).Pairwise (· < ·)
      ∧ (106 ≤ 106 ∧ 106 ∈ (s 106).smu.slots.map (·.id) ∧ ∀ k ∈ (s 106).smu.slots.map (·.id), 106 ≤ k → 106 ≤ k)
      ∧ (1 ∈ (s 920).smu.slots.map (·.id) ∧ ∀ k ∈ (s 920).smu.slots.map (·.id), k < 920 ∧ 1 ≤ k)
      ∧ 8 ≤ waitingOut isStream crowded.cpt.out ∧ crowded.cpt.out ≠ []
      ∧ isResponse (.response (responseTo ⟨5, []⟩ .park .ok .none .none)) = true ∧ isResponse (.event .lineTxFail) = false
      ∧ Codec.encodeOut 258 { stamp := 5000, body := .target 311 .failed (-1) 2 3 }
          = Codec.withCrc [66, 0, 19, 1, 2, 0, 0, 19, 136, 1, 55, 13, 255, 255, 255, 255, 0, 0, 0, 2, 0, 0, 0, 3]
      ∧ Codec.encodeOut 0 { stamp := 1, body := .permit .parked { permits := zeroPermits .state, free := none } }
          = Codec.withCrc ([65, 0, 36, 0, 0, 0, 0, 0, 1, 4, 0] ++ (List.replicate 6 [0, 0, 1, 0, 0]).flatten) := by
  decide +kernel

end Sys2Proof.Tests
end

section
/-! SUPPORT. What the shared operations leave unchanged, one equation for each block they do not touch. -/

namespace Sys2Proof.Machine

/-! ## The permit computation -/

section
variable (s : State)

@[simp] theorem compute_serial : s.compute.serial = s.serial := by rw [(compute_frame s).1]
@[simp] theorem compute_now : s.compute.now = s.now := by rw [(compute_frame s).1]
@[simp] theorem compute_draws : s.compute.draws = s.draws := by rw [(compute_frame s).1]
@[simp] theorem compute_rlc : s.compute.rlc = s.rlc := by rw [(compute_frame s).1]
@[simp] theorem compute_ptb : s.compute.ptb = s.ptb := by rw [(compute_frame s).1]
@[simp] theorem compute_clu : s.compute.clu = s.clu := by rw [(compute_frame s).1]
@[simp] theorem compute_smu : s.compute.smu = s.smu := by rw [(compute_frame s).1]
@[simp] theorem compute_wgu : s.compute.wgu = s.wgu := by rw [(compute_frame s).1]
@[simp] theorem compute_lcp : s.compute.lcp = s.lcp := by rw [(compute_frame s).1]
@[simp] theorem compute_tbu : s.compute.tbu = s.tbu := by rw [(compute_frame s).1]
@[simp] theorem compute_moc : s.compute.moc = s.moc := by rw [(compute_frame s).1]
@[simp] theorem compute_work : s.compute.work = s.work := by rw [(compute_frame s).1]
@[simp] theorem compute_pending : s.compute.pending = s.pending := by rw [(compute_frame s).1]

/-! ## The transmit queue -/

variable (i : TxItem)

@[simp] theorem offer_serial : (s.offer i).serial = s.serial := by rw [offer_frame]
@[simp] theorem offer_now : (s.offer i).now = s.now := by rw [offer_frame]
@[simp] theorem offer_ptb : (s.offer i).ptb = s.ptb := by rw [offer_frame]
@[simp] theorem offer_epu : (s.offer i).epu = s.epu := by rw [offer_frame]
@[simp] theorem offer_clu : (s.offer i).clu = s.clu := by rw [offer_frame]
@[simp] theorem offer_smu : (s.offer i).smu = s.smu := by rw [offer_frame]
@[simp] theorem offer_wgu : (s.offer i).wgu = s.wgu := by rw [offer_frame]
@[simp] theorem offer_lcp : (s.offer i).lcp = s.lcp := by rw [offer_frame]
@[simp] theorem offer_tbu : (s.offer i).tbu = s.tbu := by rw [offer_frame]
@[simp] theorem offer_moc : (s.offer i).moc = s.moc := by rw [offer_frame]
@[simp] theorem offer_cpt : (s.offer i).cpt = s.cpt := by rw [offer_frame]
@[simp] theorem offer_work : (s.offer i).work = s.work := by rw [offer_frame]
@[simp] theorem offer_pending : (s.offer i).pending = s.pending := by rw [offer_frame]
@[simp] theorem offer_nodeState : (s.offer i).rlc.nodeState = s.rlc.nodeState := by rw [offer_frame]
@[simp] theorem offer_straps : (s.offer i).rlc.straps = s.rlc.straps := by rw [offer_frame]
@[simp] theorem offer_craneNo : (s.offer i).rlc.craneNo = s.rlc.craneNo := by rw [offer_frame]
@[simp] theorem offer_notices : (s.offer i).rlc.notices = s.rlc.notices := by rw [offer_frame]

@[simp] theorem beginAttempt_queue : s.beginAttempt.rlc.queue = s.rlc.queue := by rw [beginAttempt_frame]

end

/-! ## The output queue -/

theorem waitingOut_append (p : OutBody → Bool) (xs ys : List OutRecord) :
    waitingOut p (xs ++ ys) = waitingOut p xs + waitingOut p ys := by simp [waitingOut]

theorem waitingOut_one (p : OutBody → Bool) (r : OutRecord) :
    waitingOut p [r] = if p r.body then 1 else 0 := by
  unfold waitingOut
  cases h : p r.body <;> simp [h]

/-- Records replaced by others of the same sort: of every sort as many wait as before. -/
theorem waitingOut_map (p : OutBody → Bool) (f : OutRecord → OutRecord) (out : List OutRecord)
    (h : ∀ r, p (f r).body = p r.body) : waitingOut p (out.map f) = waitingOut p out := by
  induction out with
  | nil => rfl
  | cons r rs ih =>
    simp only [waitingOut, List.map_cons, List.filter_cons, h] at ih ⊢
    split <;> simp [ih]

/-- A record joins the queue while its sort has room. -/
theorem pushOut_ok {c : Cpt} {n : Nat} {b : OutBody} (h : OutputOk c)
    (hr : isResponse b = true → waitingOut isResponse c.out < 8)
    (hp : isPermit b = true → waitingOut isPermit c.out < 1) (ht : isTarget b = true → waitingOut isTarget c.out < 1)
    (hs : isStream b = true → waitingOut isStream c.out < 8) (he : isEvent b = true → waitingOut isEvent c.out < 48) :
    OutputOk (pushOut c n b) := by
  obtain ⟨h1, h2, h3, h4, h5⟩ := h
  simp only [OutputOk, pushOut, waitingOut_append, waitingOut_one]
  refine ⟨?_, ?_, ?_, ?_, ?_⟩ <;> split <;> simp_all

theorem offerEvent_ok {c : Cpt} (h : OutputOk c) (n : Nat) (e : Event) : OutputOk (offerEvent c n e) := by
  have push : ∀ {c : Cpt} (e : Event), OutputOk c → waitingOut isEvent c.out < 48 → OutputOk (pushOut c n (.event e)) :=
    fun e h hl => pushOut_ok h (by simp [isResponse]) (by simp [isPermit]) (by simp [isTarget]) (by simp [isStream])
      fun _ => hl
  unfold offerEvent
  dsimp only
  split
  · split
    · exact push e h ‹_›
    · exact h
  · split
    · rename_i hl
      refine push e (push _ h (by omega)) ?_
      simp only [pushOut, waitingOut_append, waitingOut_one, isEvent, if_true]
      omega
    · exact h

/-- A PERMIT or TARGET placed in the queue leaves no more of any sort waiting than its limit allows (R203). -/
theorem placeOut_ok {c : Cpt} (h : OutputOk c) (n : Nat) {p : OutBody → Bool} {b : OutBody}
    (hp : p = isPermit ∨ p = isTarget) (hb : p b = true) : OutputOk (placeOut p c n b) := by
  have swap : ∀ q : OutBody → Bool, (∀ x, p x = true → q x = q b) →
      waitingOut q (c.out.map fun r => if p r.body then { stamp := n, body := b } else r) = waitingOut q c.out := by
    intro q hq
    refine waitingOut_map q _ _ fun r => ?_
    split
    · exact (hq r.body ‹_›).symm
    · rfl
  have none_waits : ¬ (c.out.any fun r => p r.body) = true → waitingOut p c.out < 1 := by
    intro hn
    simp only [List.any_eq_true, not_exists, not_and] at hn
    simp only [waitingOut, Nat.lt_one_iff, List.length_eq_zero_iff, List.filter_eq_nil_iff]
    exact hn
  have same : ∀ q ∈ [isResponse, isPermit, isTarget, isStream, isEvent], ∀ x, p x = true → q x = q b := by
    intro q hq x hx
    simp only [List.mem_cons, List.not_mem_nil, or_false] at hq
    rcases hp with rfl | rfl <;> cases b <;> simp only [isPermit, isTarget, Bool.false_eq_true] at hb <;>
      cases x <;> simp only [isPermit, isTarget, Bool.false_eq_true] at hx <;>
      rcases hq with rfl | rfl | rfl | rfl | rfl <;> rfl
  unfold placeOut
  split
  · simp only [OutputOk, swap _ (same isResponse (by simp)), swap _ (same isPermit (by simp)),
      swap _ (same isTarget (by simp)), swap _ (same isStream (by simp)), swap _ (same isEvent (by simp))]
    exact h
  · rename_i hn
    have hw := none_waits hn
    rcases hp with rfl | rfl <;> cases b <;> simp [isPermit, isTarget] at hb <;>
      exact pushOut_ok h (by simp [isResponse]) (by simp [isPermit, hw]) (by simp [isTarget, hw]) (by simp [isStream])
        (by simp [isEvent])

theorem emitRecord_ok (s : State) (h : OutputOk s.cpt) : OutputOk s.emitRecord.cpt := by
  unfold State.emitRecord
  split
  · exact h
  · exact placeOut_ok h _ (.inl rfl) rfl

theorem compute_ok (s : State) (h : OutputOk s.cpt) : OutputOk s.compute.cpt := by
  have clashes : ∀ (l : List Nat) (t : State), OutputOk t.cpt →
      OutputOk (l.foldl (fun t n => if s.epu.clash.contains n then t else t.emit (.positionClash n)) t).cpt := by
    intro l
    induction l with
    | nil => exact fun _ h => h
    | cons n l ih =>
      intro t ht
      refine ih _ ?_
      dsimp only
      split
      · exact ht
      · exact offerEvent_ok ht _ _
  unfold State.compute
  split
  · exact h
  · refine emitRecord_ok _ ?_
    dsimp only
    split
    · exact h
    · exact clashes _ _ h

end Sys2Proof.Machine
end

section
/-! SUPPORT. What a command keeps: the limits of the buffers and lists, and the HELD claims. Every sequence of moves keeps
them; so do the plain changes of the state that only commands make. -/

namespace Sys2Proof.Machine

/-- The own claims that are HELD in `t` were HELD in `s`, but for those on the targets of `x`. -/
def HeldFrom (x : Target → Prop) (s t : State) : Prop :=
  ∀ c ∈ t.clu.claims, c.state = .held → x c.target ∨ ∃ d ∈ s.clu.claims, d.target = c.target ∧ d.state = .held

/-- The limits of the output queue, the buffers, the lists and the peer table are kept from `s` to `t`, and no claim
becomes HELD but on the targets of `x`. -/
structure Kept (x : Target → Prop) (s t : State) : Prop where
  output : OutputOk s.cpt → OutputOk t.cpt
  buffers : BuffersOk s → BuffersOk t
  claims : ClaimsOk s.clu → ClaimsOk t.clu
  orders : OrdersOk s.moc → OrdersOk t.moc
  weigh : WeighOk s.wgu → WeighOk t.wgu
  peers : PeersOk s → PeersOk t
  held : HeldFrom x s t

/-- The limits are kept, and the node state, the straps and the crane number stay as they were. -/
structure Calm (x : Target → Prop) (s t : State) : Prop extends Kept x s t where
  node : t.rlc.nodeState = s.rlc.nodeState
  straps : t.rlc.straps = s.rlc.straps
  crane : t.rlc.craneNo = s.rlc.craneNo

section
variable {x : Target → Prop} {s t u : State}

theorem HeldFrom.of_claims (h : t.clu.claims = s.clu.claims) : HeldFrom x s t :=
  fun c hc hh => .inr ⟨c, h ▸ hc, rfl, hh⟩

theorem HeldFrom.trans (h : HeldFrom x s t) (k : HeldFrom x t u) : HeldFrom x s u := fun c hc hh => by
  rcases k c hc hh with hx | ⟨d, hd, hdt, hdh⟩
  · exact .inl hx
  · rw [← hdt]
    exact h d hd hdh

theorem Kept.trans (h : Kept x s t) (k : Kept x t u) : Kept x s u :=
  ⟨k.output ∘ h.output, k.buffers ∘ h.buffers, k.claims ∘ h.claims, k.orders ∘ h.orders, k.weigh ∘ h.weigh,
    k.peers ∘ h.peers, h.held.trans k.held⟩

theorem Calm.trans (h : Calm x s t) (k : Calm x t u) : Calm x s u :=
  ⟨h.toKept.trans k.toKept, k.node.trans h.node, k.straps.trans h.straps, k.crane.trans h.crane⟩

theorem Calm.refl (s : State) : Calm x s s := ⟨⟨id, id, id, id, id, id, .of_claims rfl⟩, rfl, rfl, rfl⟩

/-- A fold of an operation that is calm. -/
theorem Calm.foldl {α : Type} {f : State → α → State} (hf : ∀ s a, Calm x s (f s a)) (l : List α) (s : State) :
    Calm x s (l.foldl f s) := by
  induction l generalizing s with
  | nil => exact .refl s
  | cons a l ih => exact (hf s a).trans (ih _)

/-! ## Moves -/

theorem Move.output_ok {b : Bool} (m : Move b s t) (h : OutputOk s.cpt) : OutputOk t.cpt := by
  cases m with
  | emit _ e => exact offerEvent_ok h _ e
  | target _ o p x y z => exact placeOut_ok h _ (.inr rfl) rfl
  | compute => exact compute_ok s h
  | offer => simpa using h
  | notice => simpa [State.issueNotice] using h
  | changeWindow => simpa [State.openChangeWindow] using h
  | _ => exact h

theorem Move.reqBuf {b : Bool} (m : Move b s t) : t.cpt.reqBuf = s.cpt.reqBuf := by
  cases m with
  | emit _ e => rw [emit_cpt, (offerEvent_keeps _ _ _).1]
  | target _ o p x y z => rw [emitTarget_cpt, (placeOut_keeps isTarget _ _ _ rfl target_body).1]
  | compute => rw [(compute_frame s).1]
  | offer => simp
  | notice => simp [State.issueNotice]
  | changeWindow => simp [State.openChangeWindow]
  | _ => rfl

theorem issueNotice_notices (s : State) (slot : Nat) (k : NoticeKind) (c : Coil) (h : s.rlc.notices.length ≤ 8) :
    (s.issueNotice slot k c).rlc.notices.length ≤ 8 := by
  simp only [State.issueNotice, offer_notices, List.length_append, List.length_singleton]
  split <;> simp <;> omega

theorem Move.buffers_ok {b : Bool} (m : Move b s t) (h : BuffersOk s) : BuffersOk t := by
  have hr := m.reqBuf
  obtain ⟨hq, hn, hb⟩ := h
  refine ⟨?_, ?_, hr ▸ hb⟩
  · cases m with
    | offer _ i => exact offer_length s i hq
    | notice => exact offer_length _ _ hq
    | changeWindow => exact offer_length _ _ hq
    | compute => simpa using hq
    | _ => exact hq
  · cases m with
    | offer => simpa using hn
    | notice _ slot k c => exact issueNotice_notices s slot k c hn
    | changeWindow => simpa [State.openChangeWindow] using hn
    | compute => simpa using hn
    | _ => exact hn

theorem targets_map (l : List OwnClaim) (t : Target) (f : OwnClaim → OwnClaim) (h : ∀ c, (f c).target = c.target) :
    (l.map fun c => if c.target == t then f c else c).map (·.target) = l.map (·.target) := by
  rw [List.map_map]
  refine List.map_congr_left fun c _ => ?_
  simp only [Function.comp_apply]
  split
  · exact h c
  · rfl

theorem putClaim_ok {t : Target} {f : OwnClaim → OwnClaim} (hf : ∀ c, (f c).target = c.target) (h : ClaimsOk s.clu) :
    ClaimsOk (putClaim s t f).clu := by
  obtain ⟨hl, hd⟩ := h
  exact ⟨by simpa using hl, by rw [putClaim_clu]; dsimp only; rwa [targets_map _ _ _ hf]⟩

theorem Move.claims_ok {b : Bool} (m : Move b s t) (h : ClaimsOk s.clu) : ClaimsOk t.clu := by
  cases m with
  | compute => simpa using h
  | offer => simpa using h
  | notice => simpa [State.issueNotice] using h
  | changeWindow => simpa [State.openChangeWindow] using h
  | claim _ k f hf => exact putClaim_ok (fun c => (hf c).1) h
  | settle _ k => exact putClaim_ok (fun _ => rfl) h
  | addClaim _ c hl hn =>
    obtain ⟨_, hd⟩ := h
    have hnew : c.target ∉ s.clu.claims.map (·.target) := by
      simpa [findClaim] using hn
    refine ⟨by simpa [Machine.addClaim] using hl, ?_⟩
    rw [show (Machine.addClaim s c).clu.claims = s.clu.claims ++ [c] from rfl, List.map_append]
    exact hd.append (List.nodup_singleton _) (by simpa using hnew)
  | dropClaim _ k =>
    obtain ⟨hl, hd⟩ := h
    exact ⟨(List.length_filter_le _ _).trans hl, hd.sublist (List.filter_sublist.map _)⟩
  | _ => exact h

theorem Move.orders_ok {b : Bool} (m : Move b s t) (h : OrdersOk s.moc) : OrdersOk t.moc := by
  cases m with
  | compute => simpa using h
  | offer => simpa using h
  | notice => simpa [State.issueNotice] using h
  | changeWindow => simpa [State.openChangeWindow] using h
  | orders _ m hm => exact hm h
  | _ => exact h

theorem Move.weigh_ok {b : Bool} (m : Move b s t) (h : WeighOk s.wgu) : WeighOk t.wgu := by
  cases m with
  | compute => simpa using h
  | offer => simpa using h
  | notice => simpa [State.issueNotice] using h
  | changeWindow => simpa [State.openChangeWindow] using h
  | weigh _ w hw => exact hw h
  | closed => exact noSession_ok _ h
  | _ => exact h

theorem Move.ptb {b : Bool} (m : Move b s t) : t.ptb = s.ptb := by
  cases m with
  | compute => simp
  | offer => simp
  | notice => simp [State.issueNotice]
  | changeWindow => simp [State.openChangeWindow]
  | _ => rfl

theorem Move.node {b : Bool} (m : Move b s t) :
    t.rlc.nodeState = s.rlc.nodeState ∧ t.rlc.straps = s.rlc.straps ∧ t.rlc.craneNo = s.rlc.craneNo := by
  cases m with
  | compute => simp
  | offer => simp
  | notice => simp [State.issueNotice]
  | changeWindow => simp [State.openChangeWindow]
  | _ => exact ⟨rfl, rfl, rfl⟩

theorem PeersOk.of_eq (hp : t.ptb = s.ptb) (hn : t.rlc.nodeState = s.rlc.nodeState)
    (hc : t.rlc.craneNo = s.rlc.craneNo) (h : PeersOk s) : PeersOk t := by
  unfold PeersOk
  rwa [hp, hn, hc]

/-- No hand-on makes a claim HELD. -/
theorem Move.held (m : Move false s t) : HeldFrom x s t := by
  cases m with
  | compute => exact .of_claims (by simp)
  | offer => exact .of_claims (by simp)
  | changeWindow => exact .of_claims (by simp [State.openChangeWindow])
  | claim _ k f hf =>
    intro c hc hh
    simp only [putClaim_clu, List.mem_map] at hc
    obtain ⟨d, hd, rfl⟩ := hc
    refine .inr ⟨d, hd, ?_⟩
    split at hh
    · rename_i hk
      rw [if_pos hk]
      exact ⟨(hf d).1.symm, (hf d).2 hh⟩
    · rename_i hk
      rw [if_neg hk]
      exact ⟨rfl, hh⟩
  | addClaim _ a _ _ _ ha =>
    intro c hc hh
    simp only [Machine.addClaim, List.mem_append, List.mem_singleton] at hc
    rcases hc with hc | rfl
    · exact .inr ⟨c, hc, rfl, hh⟩
    · exact absurd hh ha
  | dropClaim _ k => exact fun c hc hh => .inr ⟨c, List.mem_of_mem_filter hc, rfl, hh⟩
  | _ => exact .of_claims rfl

/-- A sequence of moves is calm where it makes no claim HELD. -/
theorem Calm.of_moves (h : Moves true s t) (hh : HeldFrom x s t) : Calm x s t := by
  have hn := h.same (fun s => s.rlc.nodeState) fun _ _ m => m.node.1
  have hc := h.same (fun s => s.rlc.craneNo) fun _ _ m => m.node.2.2
  exact
    { output := h.keeps (P := fun s => OutputOk s.cpt) fun _ _ m => m.output_ok
      buffers := h.keeps fun _ _ m => m.buffers_ok
      claims := h.keeps (P := fun s => ClaimsOk s.clu) fun _ _ m => m.claims_ok
      orders := h.keeps (P := fun s => OrdersOk s.moc) fun _ _ m => m.orders_ok
      weigh := h.keeps (P := fun s => WeighOk s.wgu) fun _ _ m => m.weigh_ok
      peers := PeersOk.of_eq (h.same _ fun _ _ m => m.ptb) hn hc
      held := hh
      node := hn
      straps := h.same (fun s => s.rlc.straps) fun _ _ m => m.node.2.1
      crane := hc }

/-- The moves of hand-ons make no claim HELD. -/
theorem Moves.held (h : Moves false s t) : HeldFrom x s t := by
  induction h with
  | refl => exact .of_claims rfl
  | tail _ m ih => exact ih.trans m.held

theorem Moves.calm (h : Moves false s t) : Calm x s t := .of_moves h.mono h.held

/-- A sequence of moves that leaves the claims list as it is. -/
theorem Moves.calm_of_claims (h : Moves true s t) (hc : t.clu.claims = s.clu.claims) : Calm x s t :=
  .of_moves h (.of_claims hc)

theorem finish_calm (s : State) : Calm x s (State.finish s) := (finish_moves s).calm

end

end Sys2Proof.Machine
end

section
/-! SUPPORT. The operations of the store, of weighing and of the truck records leave the own claim list as it is; the
orders change it by asks and releases alone. -/

namespace Sys2Proof.Machine

/-! ## SMU -/

@[simp] theorem issueNotice_clu (s : State) (slot : Nat) (k : NoticeKind) (c : Coil) :
    (s.issueNotice slot k c).clu = s.clu := by simp [State.issueNotice]

@[simp] theorem openChangeWindow_clu (s : State) (bay : Nat) : (s.openChangeWindow bay).clu = s.clu := by
  simp [State.openChangeWindow]

@[simp] theorem changeSlot_clu (s : State) (img : Image) (id : Nat) (r : SlotRec) (src : ChangeReport) :
    (changeSlot s img id r src).clu = s.clu := by
  unfold changeSlot
  dsimp only
  split <;> split <;> split <;> simp

@[simp] theorem changeOwn_clu (s : State) (img : Image) (id : Nat) (r : SlotRec) (src : ChangeReport) (k : NoticeKind)
    (c : Coil) : (changeOwn s img id r src k c).clu = s.clu := by simp [changeOwn]

@[simp] theorem changeByRequest_clu (s : State) (img : Image) (id : Nat) (r : SlotRec) (src : ChangeReport) :
    (changeByRequest s img id r src).clu = s.clu := by
  unfold changeByRequest
  split <;> simp

@[simp] theorem pickCommit_clu (s : State) (img : Image) (id : Nat) (c : Coil) :
    (pickCommit s img id c).clu = s.clu := by
  unfold pickCommit
  split <;> simp

@[simp] theorem placeCommit_clu (s : State) (img : Image) (id : Nat) (c : Coil) (r : Option WeighResult) :
    (placeCommit s img id c r).clu = s.clu := by
  unfold placeCommit
  split <;> simp

@[simp] theorem landingFinding_clu (s : State) (img : Image) (id : Nat) (b : Bool) :
    (landingFinding s img id b).clu = s.clu := by
  unfold landingFinding
  split <;> simp

/-! ## WGU -/

@[simp] theorem markUntracked_clu (s : State) (c : UntrackedCause) : (markUntracked s c).clu = s.clu := by
  unfold markUntracked
  split <;> simp

@[simp] theorem clearUntracked_clu (s : State) : (clearUntracked s).clu = s.clu := by
  unfold clearUntracked
  split <;> simp

@[simp] theorem beginCapture_clu (s : State) (k : CaptureKind) : (beginCapture s k).clu = s.clu := by
  simp [beginCapture]

@[simp] theorem testCapture_clu (s : State) : (testCapture s).clu = s.clu := by
  unfold testCapture
  dsimp only
  split <;> simp

@[simp] theorem weighChanged_clu (s : State) : (weighChanged s).clu = s.clu := by simp [weighChanged]

@[simp] theorem endSession_clu (s : State) (img : Image) (ss : Session) (st : WeighStatus) (w : Option Nat) :
    (endSession s img ss st w).clu = s.clu := by
  unfold endSession
  cases ss.kind with
  | order id c w => simp
  | span m =>
    dsimp only
    split <;> simp

@[simp] theorem endOrderSession_clu (s : State) : (endOrderSession s).clu = s.clu := by
  unfold endOrderSession
  split
  · split <;> simp
  · rfl

@[simp] theorem endAnySession_clu (s : State) : (endAnySession s).clu = s.clu := by
  unfold endAnySession
  split <;> simp

@[simp] theorem refuseSession_clu (s : State) (img : Image) (ss : Session) : (refuseSession s img ss).clu = s.clu := by
  simp [refuseSession]

@[simp] theorem startOrderSession_clu (s : State) (img : Image) (ss : Session) :
    (startOrderSession s img ss).clu = s.clu := by
  unfold startOrderSession
  split <;> simp

@[simp] theorem openOrderSession_clu (s : State) (img : Image) (k : SessionKind) (b : Bool) :
    (openOrderSession s img k b).clu = s.clu := by
  unfold openOrderSession
  dsimp only
  split
  · split <;> simp
  · simp

@[simp] theorem abandonCapture_clu (s : State) (why : AbandonReason) : (abandonCapture s why).clu = s.clu := by
  unfold abandonCapture
  split
  · rfl
  · dsimp only
    split <;> simp

@[simp] theorem classChanged_clu (s : State) (old : LoadClass) : (classChanged s old).clu = s.clu := by
  unfold classChanged
  dsimp only
  split
  · rfl
  · split <;> split <;> simp

@[simp] theorem feedSession_clu (s : State) (net : Int) (b : Bool) : (feedSession s net b).clu = s.clu := by
  unfold feedSession
  split
  · rfl
  · split <;> rfl

@[simp] theorem settleSession_clu (s : State) (img : Image) : (settleSession s img).clu = s.clu := by
  unfold settleSession
  split
  · rfl
  · split <;> simp

@[simp] theorem breakSession_clu (s : State) : (breakSession s).clu = s.clu := by
  unfold breakSession
  split <;> rfl

@[simp] theorem timeoutSession_clu (s : State) (img : Image) (ss : Session) :
    (timeoutSession s img ss).clu = s.clu := by
  unfold timeoutSession
  split <;> simp

@[simp] theorem feedCapture_clu (s : State) (raw : Int) (b : Bool) : (feedCapture s raw b).clu = s.clu := by
  unfold feedCapture
  split
  · rfl
  · split <;> rfl

@[simp] theorem drewAverage_clu (s : State) (c : Capture) : (drewAverage s c).clu = s.clu := by
  unfold drewAverage
  split <;> rfl

@[simp] theorem completeCapture_clu (s : State) (img : Image) (c : Capture) :
    (completeCapture s img c).clu = s.clu := by
  unfold completeCapture
  dsimp only
  split
  · split <;> simp
  · simp

@[simp] theorem weighPosition_clu (s : State) : (weighPosition s).clu = s.clu := by
  unfold weighPosition
  dsimp only
  rw [testCapture_clu]
  split
  · simp
  · split <;> simp

@[simp] theorem weighStale_clu (s : State) : (weighStale s).clu = s.clu := by simp [weighStale]

@[simp] theorem loseCell_clu (s : State) : (loseCell s).clu = s.clu := by
  unfold loseCell
  dsimp only
  split <;> simp

@[simp] theorem findCell_clu (s : State) : (findCell s).clu = s.clu := by
  unfold findCell
  split <;> simp

@[simp] theorem feedSample_clu (s : State) (img : Image) (raw : Int) (b : Bool) (net : Option Int) :
    (feedSample s img raw b net).clu = s.clu := by
  unfold feedSample
  dsimp only
  split <;> simp [feedClass]

@[simp] theorem weighSample_clu (s : State) (img : Image) (raw : Int) (b : Bool) (net : Option Int) :
    (weighSample s img raw b net).clu = s.clu := by
  unfold weighSample handFed
  dsimp only
  split <;> simp

/-! ## TBU -/

@[simp] theorem staleMoved_clu (was : Bool) (s : State) (bay : Nat) : (staleMoved was s bay).clu = s.clu := by
  unfold staleMoved
  split <;> simp

@[simp] theorem raiseRequired_clu (s : State) (bay v : Nat) : (raiseRequired s bay v).clu = s.clu := by
  simp [raiseRequired, putRequired]

@[simp] theorem versionCheck_clu (s : State) (bay : Nat) : (versionCheck s bay).clu = s.clu := by
  unfold versionCheck
  split <;> simp

@[simp] theorem tellLimit_clu (s : State) (bay : Nat) : (tellLimit s bay).clu = s.clu := by
  unfold tellLimit
  split <;> simp

@[simp] theorem handBay_clu (s : State) (bay : Nat) : (handBay s bay).clu = s.clu := by
  unfold handBay
  split <;> simp

@[simp] theorem ownChange_clu (s : State) (bay : Nat) (c : TruckContent) : (ownChange s bay c).clu = s.clu := by
  simp [ownChange, setTruck, putTruck]

@[simp] theorem loseCommit_clu (s : State) (bay pos coil : Nat) (f : CommitFail) :
    (loseCommit s bay pos coil f).clu = s.clu := by
  unfold loseCommit
  split <;> simp

@[simp] theorem trailerPlaceCommit_clu (s : State) (bay pos coil m : Nat) :
    (trailerPlaceCommit s bay pos coil m).clu = s.clu := by
  unfold trailerPlaceCommit
  dsimp only
  repeat' split
  all_goals simp [tellUpdated]

@[simp] theorem trailerPickCommit_clu (s : State) (bay pos coil : Nat) (found : Bool) :
    (trailerPickCommit s bay pos coil found).clu = s.clu := by
  unfold trailerPickCommit
  dsimp only
  repeat' split
  all_goals simp [tellUpdated]

@[simp] theorem applyTruckState_clu (s : State) (n bay v : Nat) (c : TruckContent) :
    (applyTruckState s n bay v c).clu = s.clu := by
  unfold applyTruckState
  dsimp only
  split <;> simp [tellUpdated, putRequired, putTruck]

@[simp] theorem takeTruckState_clu (s : State) (n bay v : Nat) (c : TruckContent) :
    (takeTruckState s n bay v c).clu = s.clu := by
  unfold takeTruckState
  dsimp only
  repeat' split
  all_goals simp

/-! ## MOC: the operations at a sample -/

section
variable {x : Target → Prop} (s : State) (img : Image) (a : Active)

theorem openFor_calm (b : Bool) : Calm x s (openFor s img a b) :=
  (openFor_moves (.refl s) img a b).calm_of_claims (by simp [openFor])

theorem setActive_calm (f : Active → Active) (hf : ∀ a, a.excluded.length ≤ 8 → (f a).excluded.length ≤ 8) :
    Calm x s (setActive s f) := (setActive_moves (.refl s) f hf).calm

theorem endOrder_calm (e : OrderEnd) : Calm x s (endOrder s e) := (endOrder_moves (.refl s) e).calm

theorem enterPhase_calm (p : Phase) : Calm x s (enterPhase s img p) := (enterPhase_moves (.refl s) img p).calm

theorem enterDecide_calm : Calm x s (enterDecide s img) := (enterDecide_moves (.refl s) img).calm

theorem gripClosed_calm : Calm x s (gripClosed s img a) := by
  have h1 : Calm x s (setActive s fun a => { a with gripHeight := some s.sample.z }) :=
    setActive_calm s _ (by exact fun _ k => k)
  have h2 := h1.trans ((enterPhase_calm _ img .lift).trans (openFor_calm _ img a false))
  unfold gripClosed
  dsimp only
  split
  · exact h2
  · split
    · exact h1.trans (endOrder_calm _ _)
    · split
      · exact h2.trans (endOrder_calm _ _)
      · exact h2

theorem watchGrip_calm : Calm x s (watchGrip s img a) := by
  unfold watchGrip
  split
  · exact .refl s
  split
  · exact gripClosed_calm s img a
  split
  · exact .refl s
  · exact ((setActive_moves (.refl s) _ (by exact fun _ k => k)).emit _).calm

theorem liftEmpty_calm : Calm x s (liftEmpty s img a) := by
  unfold liftEmpty
  dsimp only
  refine Calm.trans ?_ (endOrder_calm _ _)
  split
  · exact (landingFinding_moves (.refl s) _ _ _).calm_of_claims (by simp)
  · exact (trailerPickCommit_moves (.refl s) _ _ _ _).calm_of_claims (by simp)

theorem liftLoaded_calm : Calm x s (liftLoaded s img a) := by
  have lifted (v : State) : Calm x v (setActive v fun a => { a with lifted := true }) :=
    setActive_calm v _ (by exact fun _ k => k)
  unfold liftLoaded
  cases a.ord.source with
  | slot id =>
    have h1 := (((pickCommit_moves (.refl s) img id a.coil).calm_of_claims (x := x) (by simp)).trans (lifted _)).trans
      (dropSource_moves (.refl _) (.slot id)).calm
    dsimp only
    split
    · exact h1.trans (enterDecide_calm _ img)
    · exact h1.trans (openFor_calm _ img a true)
  | bay b p =>
    have h1 := ((trailerPickCommit_moves (.refl s) b p a.ord.coil false).calm_of_claims (x := x) (by simp)).trans
      (lifted _)
    dsimp only
    split
    · exact h1.trans (enterDecide_calm _ img)
    · exact h1.trans (openFor_calm _ img a true)

theorem watchLift_calm : Calm x s (watchLift s img a) := by
  unfold watchLift
  split
  · exact .refl s
  split
  · exact endOrder_calm s _
  split
  · exact .refl s
  split
  · exact liftEmpty_calm s img a
  · exact liftLoaded_calm s img a

theorem earlyContact_calm : Calm x s (earlyContact s img a) := by
  have h1 : Moves false s (sendTarget (setActive s fun a => { a with targetZ := img.travelHeight })) :=
    sendTarget_moves (setActive_moves (.refl s) _ (by exact fun _ k => k))
  unfold earlyContact
  dsimp only
  split
  · exact h1.calm.trans (((landingFinding_moves (.refl _) _ _ _).calm_of_claims (by simp)).trans
      (giveUpSlot_moves (.refl _) _ _).calm)
  · exact (enterDecide_moves ((setActive_moves h1 _ (by exact fun _ k => k)).emit _) _).calm
  · exact (enterDecide_moves h1 _).calm

theorem landingWatch_calm (net : Option Int) : Calm x s (landingWatch s net) := by
  unfold landingWatch
  split
  · split
    · unfold landed
      dsimp only
      split
      · exact earlyContact_calm s _ _
      · split
        · exact (enterPhase_moves ((Moves.refl s).emit _) _ _).calm
        · exact enterPhase_calm s _ _
    · exact enterPhase_calm s _ _
    · exact .refl s
  · exact .refl s

theorem gripOpened_calm : Calm x s (gripOpened s img a) := by
  unfold gripOpened
  dsimp only
  refine Calm.trans ?_ (enterTested_moves (.refl _) _ _).calm
  split
  · exact (placeCommit_moves (.refl s) _ _ _ _).calm_of_claims (by simp)
  · exact (trailerPlaceCommit_moves (.refl s) _ _ _ _).calm_of_claims (by simp)
  · exact .refl s

theorem decideSample_calm : Calm x s (decideSample s img a) := by
  unfold decideSample
  split
  · split
    · exact (arrive_moves (.refl s) _).calm
    · exact .refl s
  · split
    · exact (arrive_moves (.refl s) _).calm
    · exact .refl s
  · exact watchGrip_calm s img a
  · exact watchLift_calm s img a
  · split
    · exact gripOpened_calm s img a
    · exact .refl s
  · split
    · exact endOrder_calm s _
    · exact .refl s
  · exact .refl s

theorem ordersSample_calm : Calm x s (ordersSample s) := by
  unfold ordersSample
  split
  · exact (decideSample_calm s _ _).trans
      (askTransit_moves (releaseTransits_moves (releaseSourceZone_moves (.refl _) _) _) _).calm
  · exact .refl s

end

end Sys2Proof.Machine
end

section
/-! SUPPORT. What the plain changes that only commands make keep: those of the RLC, of the CPT and of the peer table. -/

namespace Sys2Proof.Machine

section
variable {x : Target → Prop} {s t : State}

/-! ## Changes of one block -/

/-- A change of the clock, the draws and the RLC that leaves the node state, the straps and the crane number. -/
theorem Calm.of_rlc {now draws : Nat} {r : Rlc} (hq : s.rlc.queue.length ≤ 16 → r.queue.length ≤ 16)
    (hn : s.rlc.notices.length ≤ 8 → r.notices.length ≤ 8) (node : r.nodeState = s.rlc.nodeState)
    (straps : r.straps = s.rlc.straps) (crane : r.craneNo = s.rlc.craneNo) :
    Calm x s { s with now := now, draws := draws, rlc := r } :=
  { output := id
    buffers := fun ⟨h1, h2, h3⟩ => ⟨hq h1, hn h2, h3⟩
    claims := id
    orders := id
    weigh := id
    peers := PeersOk.of_eq rfl node crane
    held := .of_claims rfl
    node := node
    straps := straps
    crane := crane }

/-- A change of the CPT within the limits of its queues. -/
theorem Calm.of_cpt {c : Cpt} (ho : OutputOk s.cpt → OutputOk c) (hb : s.cpt.reqBuf.length ≤ 4 → c.reqBuf.length ≤ 4) :
    Calm x s { s with cpt := c } :=
  ⟨⟨ho, fun ⟨h1, h2, h3⟩ => ⟨h1, h2, hb h3⟩, id, id, id, id, .of_claims rfl⟩, rfl, rfl, rfl⟩

theorem reach_calm (s : State) (n : Nat) : Calm x s (s.reach n) := .of_rlc id id rfl rfl rfl

/-! ## Line access and the transmit queue -/

theorem beginAttempt_calm (s : State) : Calm x s s.beginAttempt := by
  rw [beginAttempt_frame]
  exact .of_rlc id id rfl rfl rfl

theorem offer_calm (s : State) (i : TxItem) : Calm x s (s.offer i) := ((Moves.refl (cmd := false) s).offer i).calm

theorem emit_calm (s : State) (e : Event) : Calm x s (s.emit e) := ((Moves.refl (cmd := false) s).emit e).calm

theorem compute_calm (s : State) : Calm x s s.compute := (Moves.refl (cmd := false) s).compute.calm

theorem hand_calm (s : State) (w : Work) : Calm x s (s.hand w) := ((Moves.refl (cmd := false) s).hand w).calm

theorem dropHead_calm (s : State) : Calm x s s.dropHead := by
  refine .trans ?_ (beginAttempt_calm _)
  exact .of_rlc (fun h => (List.drop_sublist 1 _).length_le.trans h) id rfl rfl rfl

theorem clearQueue_calm (s : State) : Calm x s s.clearQueue := .of_rlc (fun _ => by simp) id rfl rfl rfl

theorem keepBeacon_calm (s : State) : Calm x s s.keepBeacon := by
  have kept : s.rlc.queue.length ≤ 16 → (s.rlc.queue.filter fun i => i == .beacon).length ≤ 16 :=
    (List.length_filter_le _ _).trans
  unfold State.keepBeacon
  dsimp only
  split
  · exact .of_rlc kept id rfl rfl rfl
  · refine .trans ?_ (beginAttempt_calm _)
    exact .of_rlc kept id rfl rfl rfl

/-! ## Schedules -/

theorem queueProfile_calm (s : State) : Calm x s s.queueProfile := by
  refine .trans ?_ (offer_calm _ _)
  exact .of_rlc id id rfl rfl rfl

theorem startInterval_calm (s : State) : Calm x s s.startInterval := by
  unfold State.startInterval
  split <;> exact .of_rlc id id rfl rfl rfl

theorem repeatNotices_calm (s : State) : Calm x s s.repeatNotices := by
  have offered := Calm.foldl (x := x) (fun t w => offer_calm t (.fixed (.notice w.notice))) s.rlc.notices s
  have notices : ∀ (l : List NoticeWindow) (u : State),
      (l.foldl (fun t w => t.offer (.fixed (.notice w.notice))) u).rlc.notices = u.rlc.notices := by
    intro l
    induction l with
    | nil => exact fun _ => rfl
    | cons w l ih => exact fun u => (ih _).trans (offer_notices u _)
  refine offered.trans (.of_rlc id (fun h => ?_) rfl rfl rfl)
  rw [notices] at h
  exact (List.length_filter_le _ _).trans (by simpa using h)

theorem repeatTruck_calm (s : State) (bay : Nat) : Calm x s (s.repeatTruck bay) := by
  unfold State.repeatTruck
  split
  · exact .refl s
  · refine .trans ?_ (offer_calm _ _)
    exact .of_rlc id id rfl rfl rfl

theorem queueBeacon_calm (s : State) : Calm x s s.queueBeacon :=
  (startInterval_calm s).trans ((offer_calm _ _).trans ((repeatNotices_calm _).trans ((repeatTruck_calm _ 1).trans
    ((repeatTruck_calm _ 2).trans ((repeatTruck_calm _ 3).trans (repeatTruck_calm _ 4))))))

/-! ## The crane port -/

theorem countBadFrame_calm (s : State) : Calm x s (countBadFrame s) := .of_cpt id id

theorem bufferFrame_calm (s : State) (b : BufFrame) : Calm x s (bufferFrame s b) := by
  unfold bufferFrame
  split
  · exact .of_cpt id id
  · exact .of_cpt id fun _ => by simp only [List.length_append, List.length_singleton]; omega

theorem dropRequest_calm (s : State) : Calm x s (dropRequest s) :=
  .of_cpt id fun h => by simp only [List.length_drop]; omega

/-- Room for a response in the output queue (R200). -/
def RoomForResponse (s : State) : Prop := waitingOut isResponse s.cpt.out < 8

theorem queueResponse_calm (h : RoomForResponse s) (r : Response) : Calm x s (s.queueResponse r) :=
  .of_cpt (fun ho => pushOut_ok ho (fun _ => h) (by simp [isPermit]) (by simp [isTarget]) (by simp [isStream])
    (by simp [isEvent])) id

theorem answer_calm (h : RoomForResponse s) (tag : ReqTag) (r : Request) (st : Status) (why : Reason) (c : RespContent) :
    Calm x s (answer s tag r st why c) := by
  unfold answer
  dsimp only
  split
  · exact queueResponse_calm h _
  · exact (queueResponse_calm h _).trans (.of_cpt id id)

@[simp] theorem answer_rlc (s : State) (tag : ReqTag) (r : Request) (st : Status) (why : Reason) (c : RespContent) :
    (answer s tag r st why c).rlc = s.rlc := by
  unfold answer
  dsimp only
  split <;> rfl

theorem mayTake_iff (s : State) : mayTake s = true ↔ s.rlc.nodeState ≠ .reset ∧ RoomForResponse s := by
  simp [mayTake, RoomForResponse]

theorem headRequest_eq_some {k : ReqKind} {tag : ReqTag} {r : Request} :
    headRequest s k = some (tag, r) ↔ s.cpt.reqBuf.head? = some (.request tag r) ∧ reqKind r = k
      ∧ s.rlc.nodeState ≠ .reset ∧ RoomForResponse s := by
  rw [← mayTake_iff]
  unfold headRequest
  split
  · rename_i tag' r' rest hb
    simp only [hb, List.head?_cons, Option.some.injEq, BufFrame.request.injEq, Option.ite_none_right_eq_some,
      Prod.mk.injEq]
    constructor
    · rintro ⟨⟨rfl, hm⟩, rfl, rfl⟩
      exact ⟨⟨rfl, rfl⟩, rfl, hm⟩
    · rintro ⟨⟨rfl, rfl⟩, rfl, hm⟩
      exact ⟨⟨rfl, hm⟩, rfl, rfl⟩
  · rename_i hne
    constructor
    · exact nofun
    · rintro ⟨hb, _⟩
      obtain ⟨rest, hr⟩ := List.head?_eq_some_iff.mp hb
      exact (hne _ _ _ hr).elim

/-- What a request command can do (R200 to R202): nothing, where its request is not at the head of the buffer or none may
be taken; the answer to a repeat, or BAD_STATE, alone; or what serves the request. -/
theorem takeRequest_cases (s : State) (k : ReqKind) (serve : State → ReqTag → Request → State) :
    takeRequest s k serve = s
      ∨ (RoomForResponse s ∧ ((∃ resp, takeRequest s k serve = (dropRequest s).queueResponse resp)
        ∨ ∃ tag r, takeRequest s k serve = answer (dropRequest s) tag r .badState .none .none))
      ∨ ∃ tag r, RoomForResponse s ∧ s.rlc.nodeState ≠ .reset ∧ reqKind r = k ∧ acceptedIn k s.rlc.nodeState = true
        ∧ takeRequest s k serve = serve (dropRequest s) tag r := by
  unfold takeRequest
  split
  · exact .inl rfl
  rename_i tag r hr
  obtain ⟨_, hk, hn, hroom⟩ := headRequest_eq_some.mp hr
  dsimp only
  split
  · exact .inr (.inl ⟨hroom, .inl ⟨_, rfl⟩⟩)
  split
  · exact .inr (.inr ⟨tag, r, hroom, hn, hk, ‹_›, rfl⟩)
  · exact .inr (.inl ⟨hroom, .inr ⟨tag, r, rfl⟩⟩)

/-- A request command whose service is calm is calm. -/
theorem takeRequest_calm {k : ReqKind} {serve : State → ReqTag → Request → State}
    (h : ∀ (u : State) tag r, RoomForResponse u → u.rlc.nodeState ≠ .reset → reqKind r = k → Calm x u (serve u tag r)) :
    Calm x s (takeRequest s k serve) := by
  rcases takeRequest_cases s k serve with e | ⟨hroom, ⟨resp, e⟩ | ⟨tag, r, e⟩⟩ | ⟨tag, r, hroom, hn, hk, _, e⟩
  · rw [e]
    exact .refl s
  · rw [e]
    exact (dropRequest_calm s).trans (queueResponse_calm (s := dropRequest s) hroom _)
  · rw [e]
    exact (dropRequest_calm s).trans (answer_calm (s := dropRequest s) hroom _ _ _ _ _)
  · rw [e]
    exact (dropRequest_calm s).trans (h _ _ _ hroom hn hk)

end

end Sys2Proof.Machine
end

section
/-! SUPPORT. The peer table: what it holds of a number, and what a record put into it keeps (R28, R29). -/

namespace Sys2Proof.Machine

theorem mem_insertPeer {p q : Peer} {l : List Peer} (h : q ∈ insertPeer p l) : q = p ∨ q ∈ l := by
  induction l with
  | nil => exact .inl (by simpa [insertPeer] using h)
  | cons r rs ih =>
    unfold insertPeer at h
    split at h
    · simpa using h
    split at h
    · rcases List.mem_cons.mp h with h | h
      · exact .inl h
      · exact .inr (List.mem_cons_of_mem _ h)
    · rcases List.mem_cons.mp h with rfl | h
      · exact .inr List.mem_cons_self
      · exact (ih h).imp_right (List.mem_cons_of_mem _)

theorem insertPeer_length_le (p : Peer) (l : List Peer) : (insertPeer p l).length ≤ l.length + 1 := by
  induction l with
  | nil => simp [insertPeer]
  | cons q qs ih =>
    unfold insertPeer
    split
    · simp
    split
    · simp
    · simpa using ih

/-- A record of a number that the table holds takes the place of the old one. -/
theorem insertPeer_length_eq {p : Peer} {l : List Peer} (hl : l.Pairwise fun a b => a.n < b.n)
    (h : ∃ q ∈ l, q.n = p.n) : (insertPeer p l).length = l.length := by
  induction l with
  | nil => simp at h
  | cons q qs ih =>
    obtain ⟨hq, hqs⟩ := List.pairwise_cons.mp hl
    obtain ⟨r, hr, hrn⟩ := h
    unfold insertPeer
    rcases List.mem_cons.mp hr with rfl | hr
    · rw [if_neg (by omega), if_pos hrn.symm]
      rfl
    · have := hq r hr
      rw [if_neg (by omega), if_neg (by omega)]
      simp [ih hqs ⟨r, hr, hrn⟩]

theorem insertPeer_pairwise {p : Peer} {l : List Peer} (hl : l.Pairwise fun a b => a.n < b.n) :
    (insertPeer p l).Pairwise fun a b => a.n < b.n := by
  induction l with
  | nil => simp [insertPeer]
  | cons q qs ih =>
    obtain ⟨hq, hqs⟩ := List.pairwise_cons.mp hl
    unfold insertPeer
    split
    · rename_i h
      refine List.pairwise_cons.mpr ⟨fun r hr => ?_, hl⟩
      rcases List.mem_cons.mp hr with rfl | hr
      · exact h
      · exact h.trans (hq r hr)
    split
    · rename_i h
      exact List.pairwise_cons.mpr ⟨fun r hr => h ▸ hq r hr, hqs⟩
    · refine List.pairwise_cons.mpr ⟨fun r hr => ?_, ih hqs⟩
      rcases mem_insertPeer hr with rfl | hr
      · omega
      · exact hq r hr

theorem find_peer_cons (p : Peer) (l : List Peer) (m : Nat) :
    ((p :: l).find? fun q => q.n == m) = if m = p.n then some p else l.find? fun q => q.n == m := by
  by_cases h : m = p.n
  · simp [h]
  · rw [List.find?_cons_of_neg (by simpa using fun e => h e.symm), if_neg h]

/-- What the table holds of a number once a record has been put into it. -/
theorem peerAt_putPeer (s : State) (p : Peer) (m : Nat) :
    peerAt (putPeer s p).ptb m = if m = p.n then some p else peerAt s.ptb m := by
  rw [putPeer_ptb]
  unfold peerAt
  dsimp only
  induction s.ptb.peers with
  | nil => exact find_peer_cons p [] m
  | cons q qs ih =>
    unfold insertPeer
    split
    · exact find_peer_cons p _ m
    split
    · rename_i h
      rw [find_peer_cons, find_peer_cons q, ← h]
      split <;> rfl
    · rename_i h
      rw [find_peer_cons, find_peer_cons q, ih]
      by_cases hq : m = q.n
      · rw [if_pos hq, if_neg (hq ▸ Ne.symm h), if_pos hq]
      · rw [if_neg hq, if_neg hq]

theorem mem_of_peerAt {t : Ptb} {n : Nat} {p : Peer} (h : peerAt t n = some p) : p ∈ t.peers ∧ p.n = n :=
  ⟨List.mem_of_find?_eq_some h, by simpa using List.find?_some h⟩

theorem knownPeer_eq_some {s : State} {n serial : Nat} {p : Peer} :
    knownPeer s n serial = some p ↔ peerAt s.ptb n = some p ∧ p.serial = serial := by
  unfold knownPeer
  split
  · simp [*]
  · rename_i q hq
    simp only [hq, Option.ite_none_right_eq_some, Option.some.injEq]
    constructor
    · rintro ⟨h, rfl⟩; exact ⟨rfl, h⟩
    · rintro ⟨rfl, h⟩; exact ⟨h, rfl⟩

/-- A record may be put into the table: its number has a record already or the table has room, the number is not the own
one, and it has at most 6 claims; and the node is out of RESET (R29, R40). -/
def MayPut (s : State) (p : Peer) : Prop :=
  s.rlc.nodeState ≠ .reset ∧ s.rlc.craneNo ≠ some p.n ∧ p.claims.length ≤ 6
    ∧ (s.ptb.peers.length < 7 ∨ ∃ q ∈ s.ptb.peers, q.n = p.n)

theorem putPeer_peersOk {s : State} {p : Peer} (hp : MayPut s p) (h : PeersOk s) : PeersOk (putPeer s p) := by
  obtain ⟨hn, hc, h6, hroom⟩ := hp
  obtain ⟨h7, hl, hown, _⟩ := h
  refine ⟨?_, insertPeer_pairwise hl, fun q hq => ?_, fun h => absurd h hn⟩
  · rcases hroom with hroom | hroom
    · exact (insertPeer_length_le p _).trans hroom
    · exact (insertPeer_length_eq hl hroom).trans_le h7
  · rcases mem_insertPeer hq with rfl | hq
    · exact ⟨hc, h6⟩
    · exact hown q hq

section
variable {x : Target → Prop} {s : State}

theorem putPeer_calm {p : Peer} (hp : PeersOk s → MayPut s p) : Calm x s (putPeer s p) :=
  ⟨⟨id, id, id, id, id, fun h => putPeer_peersOk (hp h) h, .of_claims rfl⟩, rfl, rfl, rfl⟩

/-- A record of a known number, with at most 6 claims, may take the place of the old one. -/
theorem PeersOk.mayPut {p q : Peer} (h : PeersOk s) (hp : p ∈ s.ptb.peers) (hn : q.n = p.n)
    (hc : p.claims.length ≤ 6 → q.claims.length ≤ 6) : MayPut s q := by
  obtain ⟨_, _, hown, hreset⟩ := h
  obtain ⟨h1, h2⟩ := hown p hp
  refine ⟨fun hr => ?_, hn ▸ h1, hc h2, .inr ⟨p, hp, hn.symm⟩⟩
  rw [hreset hr] at hp
  exact absurd hp List.not_mem_nil

end

end Sys2Proof.Machine
end

section
/-! SUPPORT. Received frames and the peer table: what each operation can do, and that it keeps the limits. -/

namespace Sys2Proof.Machine

section
variable {x : Target → Prop} {cmd : Bool} {s u : State}

/-! ## What a changed record hands on -/

theorem sourceAgain_moves (h : Moves cmd s u) : Moves cmd s (sourceAgain u) := by
  unfold sourceAgain
  split
  · exact h
  · split
    · exact h.hand _
    · exact h

theorem copiesChanged_moves (h : Moves cmd s u) : Moves cmd s (copiesChanged u) :=
  sourceAgain_moves (retestClaims_moves h)

theorem recordChanged_moves (h : Moves cmd s u) : Moves cmd s (recordChanged u) := copiesChanged_moves h.compute

theorem entryChanged_moves (h : Moves cmd s u) (t : Target) : Moves cmd s (entryChanged u t) := by
  unfold entryChanged
  apply sourceAgain_moves
  split
  · exact retestClaim_moves h t
  · exact h

theorem reportField_moves (h : Moves cmd s u) (before after : Peer) : Moves cmd s (reportField u before after) := by
  unfold reportField
  split
  · exact h.emit _
  · exact h

theorem reportBack_moves (h : Moves cmd s u) (before : Peer) : Moves cmd s (reportBack u before) := by
  unfold reportBack
  split
  · exact h
  · exact h.emit _

theorem Moves.ptb {b : Bool} {s t : State} (h : Moves b s t) : t.ptb = s.ptb := h.same _ fun _ _ m => m.ptb

theorem Moves.nodeState {b : Bool} {s t : State} (h : Moves b s t) : t.rlc.nodeState = s.rlc.nodeState :=
  h.same (fun s => s.rlc.nodeState) fun _ _ m => m.node.1

theorem Moves.craneNo {b : Bool} {s t : State} (h : Moves b s t) : t.rlc.craneNo = s.rlc.craneNo :=
  h.same (fun s => s.rlc.craneNo) fun _ _ m => m.node.2.2

/-! ## Records -/

@[simp] theorem revived_n (p : Peer) (now : Nat) : (p.revived now).n = p.n := rfl
@[simp] theorem revived_claims (p : Peer) (now : Nat) : (p.revived now).claims = p.claims := rfl
@[simp] theorem placed_n (p : Peer) (img : Option Image) (now : Nat) (x vx : Int) (age : Nat) (v : Bool) :
    (p.placed img now x vx age v).n = p.n := rfl
@[simp] theorem placed_claims (p : Peer) (img : Option Image) (now : Nat) (x vx : Int) (age : Nat) (v : Bool) :
    (p.placed img now x vx age v).claims = p.claims := rfl

/-- An offered version changes nothing of a record but its versions. -/
theorem offered_frame (p : Peer) (bay v : Nat) : p.offered bay v = { p with versions := (p.offered bay v).versions } := by
  unfold Peer.offered
  split <;> rfl

/-- The versions that a BEACON's entries offer change nothing else of a record. -/
theorem offerEntries_frame (p : Peer) (img : Option Image) (es : List ClaimEntry) :
    offerEntries p img es = { p with versions := (offerEntries p img es).versions } := by
  unfold offerEntries
  split
  · rfl
  · induction es generalizing p with
    | nil => rfl
    | cons e es ih =>
      rw [List.foldl_cons, ih]
      split
      · rw [offered_frame]
      · rfl

@[simp] theorem stated_n (p : Peer) (img : Option Image) (now : Nat) (b : Beacon) : (p.stated img now b).n = p.n := by
  unfold Peer.stated
  rw [offerEntries_frame]
  rfl

@[simp] theorem stated_claims (p : Peer) (img : Option Image) (now : Nat) (b : Beacon) :
    (p.stated img now b).claims = copyOf now b.claims := by
  unfold Peer.stated
  rw [offerEntries_frame]

/-- What a JOIN, BEACON or PROFILE of another serial or of a new number starts from (R29, R31, R33). -/
theorem startRecord_cases (s : State) (n serial : Nat) :
    (∃ p, peerAt s.ptb n = some p ∧ startRecord s n serial
        = (s.emit (.peerReplaced n serial), some { Peer.fresh n serial s.now with versions := p.versions }))
      ∨ (peerAt s.ptb n = none ∧ 7 ≤ s.ptb.peers.length ∧ startRecord s n serial = (tellFull s, none))
      ∨ (peerAt s.ptb n = none ∧ s.ptb.peers.length < 7
        ∧ startRecord s n serial = (s.emit (.peerNew n serial), some (Peer.fresh n serial s.now))) := by
  unfold startRecord
  split
  · exact .inl ⟨_, ‹_›, rfl⟩
  · split
    · exact .inr (.inl ⟨‹_›, ‹_›, rfl⟩)
    · exact .inr (.inr ⟨‹_›, by omega, rfl⟩)

theorem tellFull_calm (s : State) : Calm x s (tellFull s) := by
  unfold tellFull
  split
  · exact .refl s
  · refine .trans ?_ (emit_calm _ _)
    exact ⟨⟨id, id, id, id, id, id, .of_claims rfl⟩, rfl, rfl, rfl⟩

/-- A record of a known number replaced by one with its number and no more than 6 claims, after some moves. -/
theorem putKnown_calm {p q : Peer} (h : Moves false s u) (hp : p ∈ s.ptb.peers) (hn : q.n = p.n)
    (hc : p.claims.length ≤ 6 → q.claims.length ≤ 6) : Calm x s (putPeer u q) :=
  h.calm.trans (putPeer_calm fun hu => hu.mayPut (h.ptb ▸ hp) hn hc)

/-- The record that `startRecord` gives is completed and put into the table, after some moves. -/
theorem putStarted_calm {n serial : Nat} {v : State} {p q : Peer} (hr : s.rlc.nodeState ≠ .reset)
    (hc : s.rlc.craneNo ≠ some n) (hs : startRecord s n serial = (v, some p)) (h : Moves false v u)
    (hq : p.n = n → q.n = n) (h6 : q.claims.length ≤ 6) : Calm x s (putPeer u q) := by
  have started : ∀ e, v = s.emit e → p.n = n → (s.ptb.peers.length < 7 ∨ ∃ r ∈ s.ptb.peers, r.n = n) →
      Calm x s (putPeer u q) := by
    rintro e rfl hp hroom
    have h1 : Moves false s u := ((Moves.refl s).emit e).trans h
    refine h1.calm.trans (putPeer_calm fun _ => ?_)
    rw [MayPut, h1.ptb, h1.nodeState, h1.craneNo, hq hp]
    exact ⟨hr, hc, h6, hroom⟩
  rcases startRecord_cases s n serial with ⟨r, hr, e⟩ | ⟨_, _, e⟩ | ⟨_, hl, e⟩
  · rw [e, Prod.mk.injEq, Option.some.injEq] at hs
    obtain ⟨hv, rfl⟩ := hs
    exact started _ hv.symm rfl (.inr ⟨r, mem_of_peerAt hr⟩)
  · rw [e] at hs
    cases hs
  · rw [e, Prod.mk.injEq, Option.some.injEq] at hs
    obtain ⟨hv, rfl⟩ := hs
    exact started _ hv.symm rfl (.inl hl)

theorem startNone_calm {n serial : Nat} {v : State} (hs : startRecord s n serial = (v, none)) : Calm x s v := by
  rcases startRecord_cases s n serial with ⟨_, _, e⟩ | ⟨_, _, e⟩ | ⟨_, _, e⟩ <;> rw [e] at hs <;> cases hs
  exact tellFull_calm s

theorem started_claims {n serial : Nat} {v : State} {p : Peer} (hs : startRecord s n serial = (v, some p)) :
    p.claims = [] := by
  rcases startRecord_cases s n serial with ⟨_, _, e⟩ | ⟨_, _, e⟩ | ⟨_, _, e⟩ <;> rw [e] at hs <;> cases hs <;> rfl

/-! ## Frames -/

theorem putTrack_calm (s : State) (t : Track) : Calm x s (putTrack s t) :=
  ⟨⟨id, id, id, id, id, id, .of_claims rfl⟩, rfl, rfl, rfl⟩

theorem checkBeaconSeq_calm (s : State) (n serial seq : Nat) : Calm x s (checkBeaconSeq s n serial seq) := by
  unfold checkBeaconSeq
  dsimp only
  split
  · exact .refl s
  split
  · split
    · exact (emit_calm s _).trans (putTrack_calm _ _)
    · exact (emit_calm s _).trans ((putTrack_calm _ _).trans (emit_calm _ _))
  split
  · exact putTrack_calm s _
  · exact (putTrack_calm s _).trans (emit_calm _ _)

theorem recordChanged_calm (s : State) : Calm x s (recordChanged s) := (recordChanged_moves (.refl s)).calm

theorem takeJoin_calm (n serial pattern : Nat) (px : Int) (hr : s.rlc.nodeState ≠ .reset)
    (hc : s.rlc.craneNo ≠ some n) : Calm x s (takeJoin s n serial pattern px) := by
  unfold takeJoin
  split
  · rename_i p hk
    obtain ⟨hp, _⟩ := knownPeer_eq_some.mp hk
    have hp := (mem_of_peerAt hp).1
    unfold joinKnown
    dsimp only
    split
    · refine .trans ?_ (recordChanged_calm _)
      exact putKnown_calm (reportField_moves (reportBack_moves (.refl s) _) _ _) hp rfl id
    · refine .trans ?_ (recordChanged_calm _)
      exact putKnown_calm (reportField_moves (reportBack_moves ((Moves.refl s).emit _) _) _ _) hp rfl
        fun _ => Nat.zero_le _
  · split
    · exact startNone_calm ‹_›
    · rename_i v p hs
      refine .trans ?_ (recordChanged_calm _)
      refine putStarted_calm hr hc hs (reportField_moves (.refl _) _ _) id ?_
      exact (started_claims hs).symm ▸ Nat.zero_le _

theorem takeBeacon_calm (n serial : Nat) (b : Beacon) (hr : s.rlc.nodeState ≠ .reset) (hc : s.rlc.craneNo ≠ some n)
    (h6 : b.claims.length ≤ 6) : Calm x s (takeBeacon s n serial b) := by
  have copy : ∀ (p : Peer) img now, (p.stated img now b).claims.length ≤ 6 := fun p img now => by
    simpa [copyOf] using h6
  unfold takeBeacon
  split
  · rename_i p hk
    obtain ⟨hp, _⟩ := knownPeer_eq_some.mp hk
    have hp := (mem_of_peerAt hp).1
    refine .trans ?_ (recordChanged_calm _)
    refine .trans ?_ (checkBeaconSeq_calm _ _ _ _)
    exact putKnown_calm (reportField_moves (reportBack_moves (.refl s) _) _ _) hp (stated_n _ _ _ _)
      fun _ => copy _ _ _
  · split
    · exact (startNone_calm ‹_›).trans (checkBeaconSeq_calm _ _ _ _)
    · rename_i v p hs
      refine .trans ?_ (recordChanged_calm _)
      refine .trans ?_ (checkBeaconSeq_calm _ _ _ _)
      exact putStarted_calm hr hc hs (reportField_moves (.refl _) _ _) (stated_n _ _ _ _).trans (copy _ _ _)

theorem takeProfile_calm (n serial : Nat) (f : Profile) (hr : s.rlc.nodeState ≠ .reset) (hc : s.rlc.craneNo ≠ some n) :
    Calm x s (takeProfile s n serial f) := by
  have told : ∀ {v w : State} (ok : Bool), Moves false v w →
      Moves false v (if ok = true then w else w.emit (.peerProfileBad n)) := by
    intro v w ok h
    split
    · exact h
    · exact h.emit _
  unfold takeProfile
  dsimp only
  split
  · rename_i p hk
    have hp := (mem_of_peerAt (knownPeer_eq_some.mp hk).1).1
    generalize profileOk s.cpt.image f = ok
    have hput := putKnown_calm (x := x) (q := { p.revived s.now with profile := if ok then some f else p.profile })
      (told ok (reportBack_moves (.refl s) p)) hp rfl id
    split
    · exact hput.trans (recordChanged_calm _)
    · by_cases hprof : (if ok = true then some f else p.profile) ≠ p.profile
      · rw [if_pos hprof]
        exact hput.trans (compute_calm _)
      · rw [if_neg hprof]
        exact hput
  · split
    · exact startNone_calm ‹_›
    · rename_i v p hs
      refine .trans ?_ (recordChanged_calm _)
      refine putStarted_calm hr hc hs (told _ (.refl v)) id ?_
      exact (started_claims hs).symm ▸ Nat.zero_le _

theorem hearKnown_calm (n serial : Nat) : Calm x s (hearKnown s n serial) := by
  unfold hearKnown
  split
  · exact .refl s
  · rename_i p hk
    have hp := (mem_of_peerAt (knownPeer_eq_some.mp hk).1).1
    have hput := putKnown_calm (x := x) (q := p.revived s.now) (reportBack_moves (.refl s) p) hp rfl id
    dsimp only
    split
    · exact hput
    · exact hput.trans (recordChanged_calm _)

theorem copyFrame_calm {p q : Peer} (t : Target) (h : Moves false s u) (hp : p ∈ s.ptb.peers) (hn : q.n = p.n)
    (hc : p.claims.length ≤ 6 → q.claims.length ≤ 6) : Calm x s (copyFrame u t p q) := by
  have hput := putKnown_calm (x := x) h hp hn hc
  unfold copyFrame
  dsimp only
  split
  · exact hput.trans (entryChanged_moves (.refl _) t).calm
  · exact hput.trans (recordChanged_calm _)

theorem addEntry_length {cs ds : List CopyEntry} {t : Target} {prio now : Nat} (h : addEntry cs t prio now = some ds)
    (h6 : cs.length ≤ 6) : ds.length ≤ 6 := by
  unfold addEntry at h
  split at h
  · cases h
    simpa using h6
  split at h
  · cases h
    simp only [List.length_append, List.length_singleton]
    omega
  · cases h

theorem takeClaim_calm (n serial : Nat) (t : Target) (prio : Nat) : Calm x s (takeClaim s n serial t prio) := by
  unfold takeClaim
  split
  · exact .refl s
  · rename_i p hk
    have hp := (mem_of_peerAt (knownPeer_eq_some.mp hk).1).1
    dsimp only
    split
    · exact copyFrame_calm t (reportBack_moves (.refl s) p) hp rfl (addEntry_length ‹_›)
    · exact copyFrame_calm t ((reportBack_moves (.refl s) p).emit _) hp rfl id

theorem takeRelease_calm (n serial : Nat) (t : Target) : Calm x s (takeRelease s n serial t) := by
  unfold takeRelease
  split
  · exact .refl s
  · rename_i p hk
    have hp := (mem_of_peerAt (knownPeer_eq_some.mp hk).1).1
    exact copyFrame_calm t (reportBack_moves (.refl s) p) hp rfl (List.length_filter_le _ _).trans

theorem offerVersion_calm (n serial bay version : Nat) : Calm x s (offerVersion s n serial bay version) := by
  unfold offerVersion
  split
  · exact .refl s
  · rename_i p hk
    have hp := (mem_of_peerAt (knownPeer_eq_some.mp hk).1).1
    rw [offered_frame]
    exact putKnown_calm (.refl s) hp rfl id

theorem applyNotice_calm (n : Nat) (k : Notice) : Calm x s (applyNotice s n k) := by
  unfold applyNotice
  split
  · exact emit_calm s _
  split
  · exact emit_calm s _
  dsimp only
  refine .trans ?_ ((changeSlot_moves (.refl _) _ _ _ _).calm_of_claims (by simp))
  have kept : ∀ {c : Prop} [Decidable c] {v : State} (e : Event), Moves false s v →
      Moves false s (if c then v else v.emit e) ∧ Moves false s (if c then v.emit e else v) := by
    intro c _ v e h
    by_cases hc : c
    · simp only [if_pos hc]
      exact ⟨h, h.emit e⟩
    · simp only [if_neg hc]
      exact ⟨h.emit e, h⟩
  exact (kept _ (kept _ (.refl s)).1).2.calm

theorem takeNotice_calm (n serial : Nat) (k : Notice) : Calm x s (takeNotice s n serial k) := by
  unfold takeNotice
  dsimp only
  split
  · exact putTrack_calm s _
  · refine .trans ?_ (applyNotice_calm n k)
    split
    · exact putTrack_calm s _
    · exact (putTrack_calm s _).trans (emit_calm _ _)

theorem takeTruckState_calm (n bay v : Nat) (c : TruckContent) : Calm x s (takeTruckState s n bay v c) :=
  (takeTruckState_moves (.refl s) n bay v c).calm_of_claims (by simp)

theorem changeLiveness_calm {p : Peer} (hp : p ∈ s.ptb.peers) (l : Liveness) (e : Event) :
    Calm x s (changeLiveness s p l e) :=
  Calm.trans (.trans (putKnown_calm (q := { p with liveness := l }) (.refl s) hp rfl id) (emit_calm _ e))
    (recordChanged_calm _)

theorem forceClear_calm {p : Peer} (hp : p ∈ s.ptb.peers) : Calm x s (forceClear s p) :=
  Calm.trans (.trans
    (putKnown_calm (q := { p with claims := [], cleared := true }) (.refl s) hp rfl fun _ => Nat.zero_le _)
    (emit_calm _ (.claimsCleared p.n p.claims.length))) (copiesChanged_moves (.refl _)).calm

/-! ## The image taken -/


end

end Sys2Proof.Machine
end

section
/-! SUPPORT. The entries to the node states (1.4 to 1.8) and the requests: what they keep. -/

namespace Sys2Proof.Machine

/-- The limits are kept, the straps and the crane number stay, and the node state becomes `st`. -/
structure Enters (x : Target → Prop) (st : NodeState) (s t : State) : Prop extends Kept x s t where
  node : t.rlc.nodeState = st
  straps : t.rlc.straps = s.rlc.straps
  crane : t.rlc.craneNo = s.rlc.craneNo

section
variable {x : Target → Prop} {st : NodeState} {s t u : State}

theorem Enters.calm (h : Enters x st s t) (k : Calm x t u) : Enters x st s u :=
  ⟨h.toKept.trans k.toKept, k.node.trans h.node, k.straps.trans h.straps, k.crane.trans h.crane⟩

theorem Calm.enters (h : Calm x s t) (k : Enters x st t u) : Enters x st s u :=
  ⟨h.toKept.trans k.toKept, k.node, k.straps.trans h.straps, k.crane.trans h.crane⟩

/-! ## Node states -/

theorem setNode_enters (hst : st ≠ .reset) (s : State) (cause : FaultCause) : Enters x st s (setNode s st cause) := by
  refine .calm (.calm ?_ (emit_calm _ _)) (compute_calm _)
  exact ⟨⟨id, id, id, id, id, fun ⟨h1, h2, h3, _⟩ => ⟨h1, h2, h3, fun h => absurd h hst⟩, .of_claims rfl⟩, rfl, rfl, rfl⟩

theorem stopTimers_calm (s : State) : Calm x s (stopTimers s) := .of_rlc id id rfl rfl rfl

theorem endConflicts_calm (s : State) : Calm x s (endConflicts s) := (endConflicts_moves (.refl s)).calm

theorem withdrawTruckReqs_calm (s : State) (why : TruckFail) : Calm x s (withdrawTruckReqs s why) :=
  (withdrawTruckReqs_moves (.refl s) why).calm

theorem enterConfig_enters (s : State) : Enters x .config s (enterConfig s) :=
  (clearQueue_calm s).enters (setNode_enters (by decide) _ _)

theorem enterJoining_enters (s : State) : Enters x .joining s (enterJoining s) := by
  unfold enterJoining
  refine .calm (.calm (Calm.enters ?_ (setNode_enters (by decide) _ _)) (.refl _)) (offer_calm _ _)
  exact .of_rlc (fun _ => Nat.zero_le _) id rfl rfl rfl

theorem enterRunning_enters (s : State) : Enters x .running s (enterRunning s) :=
  .calm (.calm (.calm ((stopTimers_calm s).enters (setNode_enters (by decide) _ _)) (queueBeacon_calm _))
    (queueProfile_calm _)) (hand_calm _ _)

theorem resumeRunning_enters (s : State) : Enters x .running s (resumeRunning s) :=
  .calm (.calm ((stopTimers_calm s).enters (setNode_enters (by decide) _ _)) (queueProfile_calm _)) (hand_calm _ _)

theorem enterParked_enters (s : State) : Enters x .parked s (enterParked s) :=
  .calm (.calm (.calm (setNode_enters (by decide) s _) (parkClaims_moves (.refl _)).calm) (withdrawTruckReqs_calm _ _))
    (queueBeacon_calm _)

theorem enterResuming_enters (s : State) : Enters x .resuming s (enterResuming s) := by
  refine .calm (.calm (setNode_enters (by decide) s .none) (queueBeacon_calm _)) ?_
  exact .of_rlc id id rfl rfl rfl

theorem faultFrames_calm (s : State) (cause : FaultCause) (b : Bool) : Calm x s (faultFrames s cause b) := by
  unfold faultFrames
  dsimp only
  split
  · split
    · exact (queueBeacon_calm s).trans (queueProfile_calm _)
    · exact queueBeacon_calm s
  · exact .of_rlc id id rfl rfl rfl

theorem enterFault_enters (s : State) (cause : FaultCause) : Enters x .fault s (enterFault s cause) := by
  unfold enterFault
  refine .calm (.calm (.calm (.calm (.calm (Calm.enters ?_ (setNode_enters (by decide) _ cause)) (endConflicts_calm _))
    (endOrder_calm _ _)) (withdrawTruckReqs_calm _ _)) (keepBeacon_calm _)) (faultFrames_calm _ _ _)
  exact .of_rlc id id rfl rfl rfl

/-- The straps are read while the peer table is empty. -/
theorem readStraps_kept (s : State) (t : Straps) (h : PeersOk s → s.ptb.peers = []) : Kept x s (readStraps s t) :=
  { output := id
    buffers := id
    claims := id
    orders := id
    weigh := id
    peers := fun hs => by simp [PeersOk, readStraps, h hs]
    held := .of_claims rfl }

/-- The node state that the straps lead to from RESET (R16). -/
theorem leaveReset_kept (s : State) (t : Straps) (hr : s.rlc.nodeState = .reset) :
    Kept x s (leaveReset s t)
      ∧ (leaveReset s t).rlc.nodeState = if strapNumber t = none then .fault else .config := by
  have clock : Calm x s { s with now := 0 } := .of_rlc id id rfl rfl rfl
  have pins : Kept x s (readStraps { s with now := 0 } t) :=
    clock.toKept.trans (readStraps_kept _ t fun ⟨_, _, _, h⟩ => h hr)
  unfold leaveReset
  dsimp only
  split
  · have h := enterConfig_enters (x := x) (readStraps { s with now := 0 } t)
    exact ⟨pins.trans h.toKept, by rw [h.node, if_neg (by simp [*])]⟩
  · have h := enterFault_enters (x := x) (readStraps { s with now := 0 } t) .noNumber
    exact ⟨pins.trans h.toKept, by rw [h.node, if_pos ‹_›]⟩

theorem markUntracked_calm (s : State) (c : UntrackedCause) : Calm x s (markUntracked s c) :=
  (markUntracked_moves (.refl s) c).calm

/-- What RESTART discards takes nothing over its limit, and leaves the peer table and the own claims empty. -/
theorem discard_kept (s : State) : Kept x s (discard s) :=
  { output := id
    buffers := fun ⟨_, _, h⟩ => ⟨Nat.zero_le _, Nat.zero_le _, h⟩
    claims := fun _ => by simp [ClaimsOk, discard, Clu.fresh]
    orders := fun _ => by simp [OrdersOk, queueIds, discard]
    weigh := fun ⟨h1, h2, _⟩ => ⟨h1, h2, fun ss h => by simp [discard] at h⟩
    peers := fun _ => by simp [PeersOk, discard, Ptb.fresh]
    held := fun c hc => by simp [discard, Clu.fresh] at hc }

/-- The node state that RESTART leads to (R25). -/
theorem softReset_kept (s : State) (t : Straps) :
    Kept x s (softReset s t) ∧ (softReset s t).rlc.nodeState
      = if strapNumber t = none then .fault else if s.cpt.image = none then .config else .joining := by
  have image : (markUntracked s .restart).cpt.image = s.cpt.image := by
    unfold markUntracked
    split
    · rfl
    · rw [emit_cpt, (offerEvent_keeps _ _ _).1]
  have pins : Kept x s (readStraps (discard (markUntracked s .restart)) t) :=
    ((markUntracked_calm s _).toKept.trans (discard_kept _)).trans (readStraps_kept _ t fun _ => rfl)
  have same : (readStraps (discard (markUntracked s .restart)) t).cpt.image = s.cpt.image := image
  unfold softReset
  dsimp only
  generalize readStraps (discard (markUntracked s .restart)) t = v at pins same
  rw [← same]
  cases hk : strapNumber t with
  | none =>
    have h := enterFault_enters (x := x) v .noNumber
    exact ⟨pins.trans h.toKept, by simp [h.node]⟩
  | some k =>
    cases hi : v.cpt.image with
    | none =>
      have h := enterConfig_enters (x := x) v
      exact ⟨pins.trans h.toKept, by simp [h.node]⟩
    | some img =>
      have h := enterJoining_enters (x := x) v
      exact ⟨pins.trans h.toKept, by simp [h.node]⟩

/-! ## START -/

theorem Calm.put {p : Peer} (h : Calm x s t) (hp : PeersOk s → MayPut t p) : Calm x s (putPeer t p) :=
  { output := h.output
    buffers := h.buffers
    claims := h.claims
    orders := h.orders
    weigh := h.weigh
    peers := fun hs => putPeer_peersOk (hp hs) (h.peers hs)
    held := h.held
    node := h.node
    straps := h.straps
    crane := h.crane }

/-- A number that the table holds it still holds when a record is put into it. -/
theorem number_insertPeer {p q : Peer} {l : List Peer} (h : q ∈ l) : ∃ r ∈ insertPeer p l, r.n = q.n := by
  induction l with
  | nil => simp at h
  | cons r rs ih =>
    unfold insertPeer
    split
    · exact ⟨q, List.mem_cons_of_mem _ h, rfl⟩
    split
    · rename_i hn
      rcases List.mem_cons.mp h with rfl | h
      · exact ⟨p, List.mem_cons_self, hn⟩
      · exact ⟨q, List.mem_cons_of_mem _ h, rfl⟩
    · rcases List.mem_cons.mp h with rfl | h
      · exact ⟨q, List.mem_cons_self, rfl⟩
      · obtain ⟨w, hw, e⟩ := ih h
        exact ⟨w, List.mem_cons_of_mem _ hw, e⟩

/-- The record that START makes of one (R35, R37). -/
def recheckedPeer (img : Image) (p : Peer) : Peer :=
  { p with
    profile := if (match p.profile with
      | none => false
      | some f => !profileInRange f) then none else p.profile
    x := clamp 0 img.runway p.x
    outOfField := p.outOfField || decide (clamp 0 img.runway p.x ≠ p.x) }

/-- A record rechecked: its reports, and the new record in its place. -/
theorem recheckPeer_eq (s : State) (img : Image) (p : Peer) :
    ∃ u, Moves false s u ∧ recheckPeer s img p = putPeer u (recheckedPeer img p) := by
  refine ⟨_, ?_, rfl⟩
  refine reportField_moves ?_ _ _
  split_ifs
  · exact (Moves.refl s).emit _
  · exact .refl s

theorem recheckPeers_calm (s : State) (img : Image) : Calm x s (recheckPeers s img) := by
  have fold : ∀ (l : List Peer) (t : State), (∀ p ∈ l, p ∈ s.ptb.peers) →
      (∀ p ∈ s.ptb.peers, ∃ r ∈ t.ptb.peers, r.n = p.n) → Calm x s t →
      Calm x s (l.foldl (fun t p => recheckPeer t img p) t) := by
    intro l
    induction l with
    | nil => exact fun _ _ _ h => h
    | cons p l ih =>
      intro t hl hnum ht
      obtain ⟨u, hu, e⟩ := recheckPeer_eq t img p
      have hp := hl p List.mem_cons_self
      rw [List.foldl_cons, e]
      refine ih _ (fun q hq => hl q (List.mem_cons_of_mem _ hq)) (fun q hq => ?_) ?_
      · obtain ⟨r, hr, hrn⟩ := hnum q hq
        obtain ⟨w, hw, hwn⟩ := number_insertPeer (p := recheckedPeer img p) (hu.ptb ▸ hr)
        exact ⟨w, hw, hwn.trans hrn⟩
      · refine (ht.trans hu.calm).put fun hs => ?_
        obtain ⟨h1, h2, h3, _⟩ := hs.mayPut hp (q := recheckedPeer img p) rfl id
        rw [MayPut, hu.nodeState, hu.craneNo, ht.node, ht.crane, hu.ptb]
        exact ⟨h1, h2, h3, .inr (hnum p hp)⟩
  exact fold _ s (fun _ => id) (fun p hp => ⟨p, hp, rfl⟩) (.refl s)

theorem takeImage_calm (s : State) (img : Image) : Calm x s (takeImage s img) := by
  refine .trans ?_ (recheckPeers_calm _ img)
  exact ⟨⟨id, id, id, id, id, id, .of_claims rfl⟩, rfl, rfl, rfl⟩

/-! ## Requests -/

section
variable (tag : ReqTag) (r : Request)

theorem serveConfigure_calm (h : RoomForResponse s) : Calm x s (serveConfigure s tag r) := by
  unfold serveConfigure
  split
  · split
    · exact answer_calm h _ _ _ _ _
    · exact (answer_calm h _ _ _ _ _).trans (.of_cpt id id)
  · exact .refl s

theorem serveTruck_calm (h : RoomForResponse s) (bay : Nat) (k : TruckReqKind) : Calm x s (serveTruck s tag r bay k) := by
  unfold serveTruck
  split
  · exact answer_calm h _ _ _ _ _
  split
  · exact answer_calm h _ _ _ _ _
  split
  · exact answer_calm h _ _ _ _ _
  split
  · exact answer_calm h _ _ _ _ _
  · refine (answer_calm h tag r .accepted .none .none).trans
      (.trans ?_ (.trans (ask_moves (.refl _) _ 7 _).calm (hand_calm _ _)))
    exact ⟨⟨id, id, id, id, id, id, .of_claims rfl⟩, rfl, rfl, rfl⟩

theorem serveMapLoad_calm (h : RoomForResponse s) (slot : Nat) (content : Option Content) (coil : Coil) :
    Calm x s (serveMapLoad s tag r slot content coil) := by
  unfold serveMapLoad
  split
  · split
    · exact answer_calm h _ _ _ _ _
    split
    · exact answer_calm h _ _ _ _ _
    · exact (answer_calm h _ _ _ _ _).trans ((changeByRequest_moves (.refl _) _ _ _ _).calm_of_claims (by simp))
  · exact answer_calm h _ _ _ _ _

theorem serveBlock_calm (h : RoomForResponse s) (slot : Nat) (on : Bool) : Calm x s (serveBlock s tag r slot on) := by
  unfold serveBlock
  split
  · dsimp only
    split
    · exact answer_calm h _ _ _ _ _
    · exact (answer_calm h _ _ _ _ _).trans ((changeOwn_moves (.refl _) _ _ _ _ _ _).calm_of_claims (by simp))
  · exact answer_calm h _ _ _ _ _

theorem serveForceClear_calm (h : RoomForResponse s) (n : Nat) : Calm x s (serveForceClear s tag r n) := by
  unfold serveForceClear
  split
  · exact answer_calm h _ _ _ _ _
  split
  · exact answer_calm h _ _ _ _ _
  · rename_i p hp
    split
    · have ha := answer_calm (x := x) h tag r .ok .none .none
      refine ha.trans (forceClear_calm ?_)
      have : (answer s tag r .ok .none .none).ptb = s.ptb := by
        unfold answer
        dsimp only
        split <;> rfl
      exact this ▸ (mem_of_peerAt hp).1
    · exact answer_calm h _ _ _ _ _

theorem serveVerifyZero_calm (h : RoomForResponse s) : Calm x s (serveVerifyZero s tag r) := by
  unfold serveVerifyZero
  repeat' split
  case isFalse => exact (answer_calm h _ _ _ _ _).trans
                    ((testCapture_moves (beginCapture_moves (.refl _) _)).calm_of_claims (by simp))
  all_goals exact answer_calm h _ _ _ _ _

theorem openSpan_calm (s : State) (mass : Nat) : Calm x s (openSpan s mass) :=
  ((Moves.refl s).tail (.weigh s _ fun k => session_ok k (by simp))).calm_of_claims rfl

theorem serveVerifySpan_calm (h : RoomForResponse s) (img : Image) (mass : Nat) :
    Calm x s (serveVerifySpan s tag r img mass) := by
  unfold serveVerifySpan
  repeat' split
  case isFalse => exact (answer_calm h _ _ _ _ _).trans (openSpan_calm _ _)
  all_goals exact answer_calm h _ _ _ _ _

theorem insertOrder_length (o : Order) (l : List Order) : (insertOrder o l).length = l.length + 1 := by
  induction l with
  | nil => rfl
  | cons q qs ih =>
    unfold insertOrder
    split
    · rfl
    · simp [ih]

@[simp] theorem answer_moc (s : State) (st : Status) (why : Reason) (c : RespContent) :
    (answer s tag r st why c).moc = s.moc := by
  unfold answer
  dsimp only
  split <;> rfl

theorem serveSubmit_calm (h : RoomForResponse s) (o : Order) : Calm x s (serveSubmit s tag r o) := by
  unfold serveSubmit
  split
  · exact answer_calm h _ _ _ _ _
  split
  · exact answer_calm h _ _ _ _ _
  split
  · exact answer_calm h _ _ _ _ _
  split
  · exact answer_calm h _ _ _ _ _
  rename_i hfull
  split
  · exact answer_calm h _ _ _ _ _
  · refine (answer_calm h tag r .ok .none .none).trans (.trans (.trans ?_ (emit_calm _ _)) (hand_calm _ _))
    refine (Moves.tail (.refl _) (.orders _ _ ?_)).calm
    rintro ⟨_, h4, h8⟩
    refine ⟨?_, h4, h8⟩
    simp only [answer_moc, queueIds, List.length_append, List.length_map, insertOrder_length] at hfull ⊢
    omega

theorem cancelWaiting_calm (s : State) (o : Order) : Calm x s (cancelWaiting s o) := by
  refine .trans (.trans ?_ (emit_calm _ _)) (keepEnded_moves (.refl _) _).calm
  refine (Moves.tail (.refl s) (.orders s _ ?_)).calm
  rintro ⟨h1, h4, h8⟩
  refine ⟨le_trans ?_ h1, h4, h8⟩
  simp only [queueIds, List.length_append, List.length_map]
  exact Nat.add_le_add_left (List.length_filter_le _ _) _

theorem divertCancelled_calm (s : State) (a : Active) : Calm x s (divertCancelled s a) := by
  have h1 := ((setActive_moves (cmd := false) (.refl s) (fun a => { a with primaryDropped := true })
    (by exact fun _ k => k)).emit (.cancelDiverted a.ord.id))
  unfold divertCancelled
  dsimp only
  split
  · exact h1.calm
  split
  · exact (enterDecide_moves (dropDests_moves h1) _).calm
  · exact h1.calm

theorem cancelActive_calm (h : RoomForResponse s) (a : Active) : Calm x s (cancelActive s tag r a) := by
  unfold cancelActive
  repeat' split
  · exact answer_calm h _ _ _ _ _
  · exact answer_calm h _ _ _ _ _
  · exact (answer_calm h _ _ _ _ _).trans (divertCancelled_calm _ _)
  · exact answer_calm h _ _ _ _ _
  · exact (answer_calm h _ _ _ _ _).trans (endOrder_calm _ _)

theorem serveCancel_calm (h : RoomForResponse s) (id : Nat) : Calm x s (serveCancel s tag r id) := by
  unfold serveCancel
  split
  · exact cancelActive_calm tag r h _
  split
  · exact (answer_calm h _ _ _ _ _).trans (cancelWaiting_calm _ _)
  · exact answer_calm h _ _ _ _ _

theorem serveRedirect_calm (h : RoomForResponse s) (id : Nat) (d : Dest) : Calm x s (serveRedirect s tag r id d) := by
  unfold serveRedirect
  repeat' split
  case isFalse => exact (answer_calm h _ _ _ _ _).trans ((setActive_calm _ _ (by exact fun _ k => k)).trans (enterDecide_calm _ _))
  all_goals exact answer_calm h _ _ _ _ _

theorem serveReadSlots_calm (h : RoomForResponse s) : Calm x s (serveReadSlots s tag r) := by
  unfold serveReadSlots
  split
  · split
    · exact answer_calm h _ _ _ _ _
    split
    · exact answer_calm h _ _ _ _ _
    dsimp only
    split
    · exact answer_calm h _ _ _ _ _
    · exact (answer_calm h _ _ _ _ _).trans (.of_cpt id id)
  · exact .refl s

end

end

end Sys2Proof.Machine
end

section
/-! What every command keeps: the limits of the buffers and lists, the node state but for the transitions of section 1.9,
the HELD claims but for the end of a settle timer, and the pins read but for the commands that read them. -/

namespace Sys2Proof.Machine

/-! ## Received frames -/

/-- What becomes of a received frame (R5, R6): it is ignored or counted in RX_BAD, it is evidence of a duplicate number, or
it is routed. -/
theorem receive_cases (s : State) (f : Frame) (route : State → State) :
    receive s f route = s ∨ receive s f route = countBad s
      ∨ (s.rlc.craneNo = some f.sender ∧ f.serial ≠ s.serial ∧ receive s f route = heardDuplicate s f)
      ∨ (Routed s f.sender f.serial f.body ∧ receive s f route = route s) := by
  unfold receive heard
  by_cases hr : s.rlc.nodeState = .reset
  · exact .inl (by simp [hr])
  by_cases ho : Codec.frameOk f = true
  swap
  · exact .inr (.inl (by simp [hr, ho]))
  by_cases hn : s.rlc.craneNo = some f.sender
  · by_cases hs : f.serial = s.serial
    · exact .inl (by simp [hr, ho, hn, hs])
    · exact .inr (.inr (.inl ⟨hn, hs, by simp [hr, ho, hn, hs]⟩))
  · exact .inr (.inr (.inr ⟨⟨hr, ho, hn⟩, by simp [hr, ho, hn]⟩))

/-- What a frame of the own number with another serial does, by the node state and its kind (R19, R20). -/
theorem heardDuplicate_cases (s : State) (f : Frame) :
    (faultsNode s.rlc.nodeState f.body ∧ heardDuplicate s f = enterFault s .duplicateNumber)
      ∨ (¬ faultsNode s.rlc.nodeState f.body ∧ onlyReported s.rlc.nodeState f.body
        ∧ heardDuplicate s f = sayDuplicate s f.serial)
      ∨ (¬ faultsNode s.rlc.nodeState f.body ∧ ¬ onlyReported s.rlc.nodeState f.body ∧ heardDuplicate s f = s) := by
  unfold heardDuplicate
  generalize s.rlc.nodeState = st
  cases st <;> cases f.body <;> simp [faultsNode, onlyReported]

section
variable {x : Target → Prop} (s : State)

theorem sayDuplicate_calm (serial : Nat) : Calm x s (sayDuplicate s serial) := by
  unfold sayDuplicate
  split
  · exact .refl s
  · refine .trans ?_ (emit_calm _ _)
    exact .of_rlc id id rfl rfl rfl

/-- A received frame is calm, or faults the node as evidence of a duplicate number. -/
theorem receive_calm (f : Frame) {route : State → State}
    (hr : Routed s f.sender f.serial f.body → Calm x s (route s)) :
    Calm x s (receive s f route)
      ∨ (s.rlc.craneNo = some f.sender ∧ f.serial ≠ s.serial ∧ faultsNode s.rlc.nodeState f.body
        ∧ Enters x .fault s (receive s f route)) := by
  rcases receive_cases s f route with e | e | ⟨hn, hs, e⟩ | ⟨h, e⟩ <;> rw [e]
  · exact .inl (.refl s)
  · exact .inl (.of_rlc id id rfl rfl rfl)
  · rcases heardDuplicate_cases s f with ⟨hf, e⟩ | ⟨_, _, e⟩ | ⟨_, _, e⟩ <;> rw [e]
    · exact .inr ⟨hn, hs, hf, enterFault_enters s _⟩
    · exact .inl (sayDuplicate_calm s _)
    · exact .inl (.refl s)
  · exact .inl (hr h)

/-- The serial, the draws and the answer delays of a JOIN. -/
theorem answerJoin_calm (n pattern : Nat) : Calm x s (answerJoin s n pattern) := by
  unfold answerJoin
  split
  · exact .refl s
  · split
    · exact .of_rlc id id rfl rfl rfl
    · exact .of_rlc id id rfl rfl rfl
    · exact .of_rlc id id rfl rfl rfl
    · exact .refl s

theorem confirmJoin_calm (pattern joiner : Nat) : Calm x s (confirmJoin s pattern joiner) := by
  unfold confirmJoin
  split
  · exact .of_rlc id id rfl rfl rfl
  · exact .refl s

/-! ## Line access, samples and timers -/

theorem failAttempt_calm : Calm x s (failAttempt s) := by
  unfold failAttempt
  split
  · refine .trans ?_ (dropHead_calm _)
    exact .of_rlc id id rfl rfl rfl
  · refine .trans ?_ (beginAttempt_calm _)
    exact .of_rlc id id rfl rfl rfl

theorem frameSent_calm : Calm x s (frameSent s) := by
  refine .trans ?_ (dropHead_calm _)
  exact .of_rlc id id rfl rfl rfl

theorem keepRaw_calm (raw : Int) (b : Bool) : Calm x s (keepRaw s raw b) :=
  ⟨⟨id, id, id, id, id, id, .of_claims rfl⟩, rfl, rfl, rfl⟩

theorem takeLoad_calm (raw : Int) (b : Bool) : Calm x s (takeLoad s raw b) := by
  have found := (keepRaw_calm (x := x) s raw b).trans ((findCell_moves (.refl _)).calm_of_claims (by simp))
  unfold takeLoad
  dsimp only
  split
  · exact found
  · exact found.trans (((weighSample_moves (.refl _) _ _ _ _).calm_of_claims (by simp)).trans (landingWatch_calm _ _))

theorem noteExcursion_calm (fs : List SampleField) : Calm x s (noteExcursion s fs) := by
  unfold noteExcursion
  dsimp only
  split
  · refine (emit_calm s (.outOfField fs)).trans ?_
    exact .of_cpt id id
  · exact .of_cpt id id

theorem noteBack_calm : Calm x s (noteBack s) := by
  unfold noteBack
  split
  · exact emit_calm s _
  · exact .refl s

theorem handSample_calm : Calm x s (handSample s) :=
  (compute_calm s).trans (((weighPosition_moves (.refl _)).calm_of_claims (by simp)).trans
    ((ordersSample_calm _).trans (resettleZones_moves (.refl _)).calm))

theorem takeSample_calm (f : PositionFrame) (g : Grip) : Calm x s (takeSample s f g) := by
  unfold takeSample
  dsimp only
  refine .trans (.trans (.trans (noteExcursion_calm s (clampedFields f (clampSample s.cpt f g))) (noteBack_calm _)) ?_)
    (handSample_calm _)
  exact .of_cpt id id

theorem judgeSample_calm (f : PositionFrame) (g : Grip) : Calm x s (judgeSample s f g) := by
  unfold judgeSample
  split
  · exact takeSample_calm s f g
  · dsimp only
    split
    · exact .of_cpt id id
    · refine .trans ?_ (takeSample_calm _ f g)
      exact .of_cpt id id

theorem readPosition_calm (bytes : List Byte) : Calm x s (readPosition s bytes) := by
  unfold readPosition
  split
  · exact countBadFrame_calm s
  split
  · exact .refl s
  split
  · exact countBadFrame_calm s
  · unfold usePosition
    split
    · exact countBadFrame_calm s
    · exact judgeSample_calm s _ _

theorem receivePort_calm (f : CpFrame) : Calm x s (receivePort f s) := by
  unfold receivePort
  split
  · exact countBadFrame_calm s
  split
  · split
    · exact .refl s
    · exact countBadFrame_calm s
  · exact bufferFrame_calm s _

theorem sendRecord_ok {c : Cpt} {r : OutRecord} {rest : List OutRecord} (h : c.out = r :: rest) (ho : OutputOk c) :
    OutputOk (sendRecord c r rest) := by
  have fewer : ∀ p, waitingOut p rest ≤ waitingOut p c.out := fun p => by
    rw [h]
    exact (List.Sublist.filter _ (List.sublist_cons_self r rest)).length_le
  obtain ⟨h1, h2, h3, h4, h5⟩ := ho
  have kept : OutputOk { c with out := rest } :=
    ⟨(fewer _).trans h1, (fewer _).trans h2, (fewer _).trans h3, (fewer _).trans h4, (fewer _).trans h5⟩
  unfold sendRecord
  dsimp only
  split <;> exact kept

theorem execOutputRecordSent_calm {t : State} (h : execOutputRecordSent s = .next t) : Calm x s t := by
  unfold execOutputRecordSent at h
  split at h <;> cases h
  · exact .refl s
  · rename_i r rest hs
    refine .of_cpt (sendRecord_ok hs) fun hb => ?_
    unfold sendRecord
    dsimp only
    split <;> exact hb

theorem execSlotStreamRecord_calm {t : State} (h : execSlotStreamRecord s = .next t) : Calm x s t := by
  unfold execSlotStreamRecord at h
  injection h with h
  subst h
  split
  · exact .refl s
  split
  · exact .refl s
  rename_i hroom
  split
  · exact .of_cpt id id
  · exact .of_cpt (fun ho => pushOut_ok ho (by simp [isResponse]) (by simp [isPermit]) (by simp [isTarget])
      (fun _ => by omega) (by simp [isEvent])) id

theorem execUnknownRequestTaken_calm {t : State} (h : execUnknownRequestTaken s = .next t) : Calm x s t := by
  unfold execUnknownRequestTaken at h
  injection h with h
  subst h
  split
  · exact .refl s
  · rename_i hb
    have room : RoomForResponse (dropRequest s) := by
      unfold headBad at hb
      split at hb
      · exact ((mayTake_iff s).mp (by by_contra hm; simp [hm] at hb)).2
      · cases hb
    exact (dropRequest_calm s).trans (queueResponse_calm room _)

theorem tellWaiting_calm (a : Active) : Calm x s (tellWaiting s a) :=
  (setActive_calm s (fun a => { a with waitTold := true }) (by exact fun _ k => k)).trans (emit_calm _ _)

theorem goStale_calm : Calm x s (goStale s) := by
  refine .trans (.trans (.trans ?_ (emit_calm _ _)) (compute_calm _)) ((weighStale_moves (.refl _)).calm_of_claims (by simp))
  exact .of_cpt id id

theorem timeoutTruckReq_calm (bay : Nat) (q : TruckReq) : Calm x s (timeoutTruckReq s bay q) :=
  (failTruckReq_moves (.refl s) bay _).calm

theorem tick_calm : Calm x s s.tick := .of_rlc id id rfl rfl rfl

theorem blank_kept (cause : StopCause) : Kept x s (State.blank s cause) :=
  { output := fun _ => by simp [OutputOk, State.blank, State.reset, Cpt.fresh, waitingOut]
    buffers := fun _ => by simp [BuffersOk, State.blank, State.reset, Cpt.fresh, Rlc.fresh]
    claims := fun _ => by simp [ClaimsOk, State.blank, State.reset, Clu.fresh]
    orders := fun _ => by simp [OrdersOk, State.blank, State.reset, Moc.fresh, queueIds]
    weigh := fun _ => by simp [WeighOk, State.blank, State.reset, Wgu.fresh]
    peers := fun _ => by simp [PeersOk, State.blank, State.reset, Ptb.fresh]
    held := fun c hc => by simp [State.blank, State.reset, Clu.fresh] at hc }

/-- The end of an entry's settle timer makes no other claim HELD (R82). -/
theorem settleClaim_calm (c : OwnClaim) (hx : x c.target) : Calm x s (settleClaim s c) := by
  refine .of_moves (settleClaim_moves (.refl s) c) ?_
  refine .trans (t := putClaim s c.target fun d => { d with state := .held }) ?_ ?_
  · intro d hd hh
    simp only [putClaim_clu, List.mem_map] at hd
    obtain ⟨e, he, rfl⟩ := hd
    split
    · rename_i ht
      exact .inl (by simpa [eq_of_beq ht] using hx)
    · rename_i ht
      rw [if_neg ht] at hh
      exact .inr ⟨e, he, rfl, hh⟩
  · exact (retestClaim_moves (claimChanged_moves (.refl _) _ _ _ _) _).held

end

/-! ## Commands -/

/-- What a command keeps from `s` to `t`. -/
structure Obeys (c : Instr) (s t : State) : Prop where
  kept : Kept (fun k => c = .settleTimerExpiry k) s t
  node : t.rlc.nodeState = s.rlc.nodeState ∨ nodeEvent s c s.rlc.nodeState t.rlc.nodeState
  pins : (∀ u, c ≠ .resetRelease u) → (∀ u, c ≠ .restart u) → c ≠ .powerOn → c ≠ .resetPinAssert →
    t.rlc.straps = s.rlc.straps ∧ t.rlc.craneNo = s.rlc.craneNo

section
variable {c : Instr} {s t u : State}

theorem Calm.obeys (h : Calm (fun k => c = .settleTimerExpiry k) s t) : Obeys c s t :=
  ⟨h.toKept, .inl h.node, fun _ _ _ _ => ⟨h.straps, h.crane⟩⟩

theorem Enters.obeys {st : NodeState} (h : Enters (fun k => c = .settleTimerExpiry k) st s t)
    (he : nodeEvent s c s.rlc.nodeState st) : Obeys c s t :=
  ⟨h.toKept, .inr (h.node ▸ he), fun _ _ _ _ => ⟨h.straps, h.crane⟩⟩

/-- A command that serves its hand-ons obeys where it does without them. -/
theorem Obeys.finish (h : Obeys c s u) : Obeys c s (State.finish u) := by
  have hf := finish_calm (x := fun k => c = .settleTimerExpiry k) u
  refine ⟨h.kept.trans hf.toKept, hf.node ▸ h.node, fun h1 h2 h3 h4 => ?_⟩
  rw [hf.straps, hf.crane]
  exact h.pins h1 h2 h3 h4

/-- A request that enters a node state obeys where its entry is a transition of section 1.9. -/
theorem takeRequest_obeys {k : ReqKind} {serve : State → ReqTag → Request → State}
    (h : ∀ tag r, RoomForResponse (dropRequest s) → acceptedIn k s.rlc.nodeState = true →
      s.rlc.nodeState ≠ .reset → Obeys c (dropRequest s) (serve (dropRequest s) tag r)) :
    Obeys c s (takeRequest s k serve) := by
  rcases takeRequest_cases s k serve with e | ⟨hroom, ⟨resp, e⟩ | ⟨tag, r, e⟩⟩ | ⟨tag, r, hroom, hn, _, ha, e⟩ <;> rw [e]
  · exact (Calm.refl s).obeys
  · exact ((dropRequest_calm s).trans (queueResponse_calm (s := dropRequest s) hroom _)).obeys
  · exact ((dropRequest_calm s).trans (answer_calm (s := dropRequest s) hroom _ _ _ _ _)).obeys
  · obtain ⟨kept, node, pins⟩ := h tag r hroom ha hn
    exact ⟨(dropRequest_calm s).toKept.trans kept, node, pins⟩

/-- A request whose service is calm. -/
theorem request_obeys {k : ReqKind} {serve : State → ReqTag → Request → State}
    (h : ∀ (u : State) tag r, RoomForResponse u → reqKind r = k →
      Calm (fun k => c = .settleTimerExpiry k) u (serve u tag r)) : Obeys c s (State.finish (takeRequest s k serve)) :=
  (takeRequest_calm fun u tag r hroom _ hk => h u tag r hroom hk).obeys.finish

/-- A received frame that faults no node by its kind. -/
theorem receive_obeys {f : Frame} {route : State → State}
    (hr : Routed s f.sender f.serial f.body → Calm (fun k => c = .settleTimerExpiry k) s (route s))
    (hf : s.rlc.craneNo = some f.sender → f.serial ≠ s.serial → faultsNode s.rlc.nodeState f.body →
      nodeEvent s c s.rlc.nodeState .fault) : Obeys c s (State.finish (receive s f route)) := by
  rcases receive_calm s f hr with h | ⟨hn, hs, hb, h⟩
  · exact h.obeys.finish
  · exact (h.obeys (hf hn hs hb)).finish

end

end Sys2Proof.Machine
end

section
/-! Every command keeps the limits, changes the node state by the transitions of section 1.9 alone, and makes a claim HELD
only at its settle timer. -/

namespace Sys2Proof.Machine

/-! ## The commands, one by one -/

section
variable {s t : State}

theorem execPowerOn_obeys (h : execPowerOn s = .next t) : Obeys .powerOn s t := by
  cases h
  exact ⟨blank_kept s _, .inr rfl, fun _ _ h => absurd rfl h⟩

theorem execResetPinAssert_obeys (h : execResetPinAssert s = .next t) : Obeys .resetPinAssert s t := by
  cases h
  exact ⟨blank_kept s _, .inr rfl, fun _ _ _ h => absurd rfl h⟩

theorem execResetRelease_obeys {p : Straps} (h : execResetRelease p s = .next t) : Obeys (.resetRelease p) s t := by
  cases h
  refine Obeys.finish ?_
  split
  · rename_i hr
    obtain ⟨kept, node⟩ := leaveReset_kept s p hr
    exact ⟨kept, .inr ⟨hr, node⟩, fun h => absurd rfl (h p)⟩
  · exact (Calm.refl s).obeys

theorem execRxJoin_obeys {n serial pattern : Nat} {x : Int} (h : execRxJoin n serial pattern x s = .next t) :
    Obeys (.rxJoin n serial pattern x) s t := by
  cases h
  refine receive_obeys (fun hr => ?_) fun hn hs hf => ?_
  · obtain ⟨h1, _, h2⟩ := hr
    exact (takeJoin_calm n serial pattern x h1 h2).trans (answerJoin_calm _ _ _)
  · generalize hst : s.rlc.nodeState = st at hf
    cases st <;> simp only [faultsNode] at hf
    exact ⟨rfl, rfl, hn, hs⟩

theorem execRxWelcome_obeys {n serial pattern joiner : Nat} (h : execRxWelcome n serial pattern joiner s = .next t) :
    Obeys (.rxWelcome n serial pattern joiner) s t := by
  cases h
  refine receive_obeys (fun _ => (hearKnown_calm n serial).trans (confirmJoin_calm _ _ _)) fun hn hs hf => ?_
  generalize hst : s.rlc.nodeState = st at hf
  cases st <;> simp only [faultsNode] at hf
  exact ⟨rfl, rfl, hn, hs⟩

theorem execRxBeacon_obeys {n serial : Nat} {b : Beacon} (h : execRxBeacon n serial b s = .next t) :
    Obeys (.rxBeacon n serial b) s t := by
  cases h
  refine receive_obeys (fun hr => ?_) fun hn hs hf => ?_
  · obtain ⟨h1, h2, h3⟩ := hr
    simp only [Codec.frameOk, Codec.formOk, Bool.and_eq_true, decide_eq_true_eq] at h2
    obtain ⟨⟨_, h6, _⟩, _⟩ := h2
    exact takeBeacon_calm n serial b h1 h3 h6
  · generalize hst : s.rlc.nodeState = st at hf
    cases st <;> simp only [faultsNode] at hf
    all_goals exact ⟨by simp, rfl, hn, hs⟩

theorem execRxProfile_obeys {n serial : Nat} {p : Profile} (h : execRxProfile n serial p s = .next t) :
    Obeys (.rxProfile n serial p) s t := by
  cases h
  exact receive_obeys (fun ⟨h1, _, h2⟩ => takeProfile_calm n serial p h1 h2) fun _ _ hf => by simp [faultsNode] at hf

theorem execRxClaim_obeys {n serial prio : Nat} {k : Target} (h : execRxClaim n serial k prio s = .next t) :
    Obeys (.rxClaim n serial k prio) s t := by
  cases h
  exact receive_obeys (fun _ => takeClaim_calm n serial k prio) fun _ _ hf => by simp [faultsNode] at hf

theorem execRxRelease_obeys {n serial : Nat} {k : Target} (h : execRxRelease n serial k s = .next t) :
    Obeys (.rxRelease n serial k) s t := by
  cases h
  exact receive_obeys (fun _ => takeRelease_calm n serial k) fun _ _ hf => by simp [faultsNode] at hf

theorem execRxNotice_obeys {n serial : Nat} {k : Notice} (h : execRxNotice n serial k s = .next t) :
    Obeys (.rxNotice n serial k) s t := by
  cases h
  refine receive_obeys (fun _ => ?_) fun _ _ hf => by simp [faultsNode] at hf
  dsimp only
  split
  · exact hearKnown_calm n serial
  · exact (hearKnown_calm n serial).trans (takeNotice_calm n serial k)

theorem execRxTruckState_obeys {n serial bay version : Nat} {c : TruckContent}
    (h : execRxTruckState n serial bay version c s = .next t) : Obeys (.rxTruckState n serial bay version c) s t := by
  cases h
  refine receive_obeys (fun _ => ?_) fun _ _ hf => by simp [faultsNode] at hf
  dsimp only
  split
  · exact hearKnown_calm n serial
  · exact (hearKnown_calm n serial).trans ((offerVersion_calm n serial bay version).trans (takeTruckState_calm n bay version c))

theorem execProfileDelayExpiry_obeys (h : execProfileDelayExpiry s = .next t) : Obeys .profileDelayExpiry s t := by
  cases h
  refine Calm.obeys ?_
  split
  · exact .refl s
  · rename_i d _
    have spent := (Calm.of_rlc (x := fun k => Instr.profileDelayExpiry = .settleTimerExpiry k)
      (r := { s.rlc with profileDelays := s.rlc.profileDelays.erase d }) (now := s.now) (draws := s.draws) id id rfl rfl
      rfl).trans (reach_calm _ d)
    dsimp only
    split
    · exact spent.trans (queueProfile_calm _)
    · exact spent

theorem execWelcomeDelayExpiry_obeys (h : execWelcomeDelayExpiry s = .next t) : Obeys .welcomeDelayExpiry s t := by
  cases h
  refine Calm.obeys ?_
  split
  · exact .refl s
  split
  · exact .refl s
  · rename_i d _ _ w _
    have spent := (Calm.of_rlc (x := fun k => Instr.welcomeDelayExpiry = .settleTimerExpiry k)
      (r := { s.rlc with welcomeDelays := s.rlc.welcomeDelays.erase w }) (now := s.now) (draws := s.draws) id id rfl rfl
      rfl).trans (reach_calm _ d)
    dsimp only
    split
    · exact spent.trans (offer_calm _ _)
    · exact spent

theorem execJoinTimerExpiry_obeys (h : execJoinTimerExpiry s = .next t) : Obeys .joinTimerExpiry s t := by
  cases h
  refine Obeys.finish ?_
  split
  · exact (Calm.refl s).obeys
  split
  · rename_i hj
    exact ((reach_calm s _).enters (enterRunning_enters _)).obeys ⟨hj, rfl⟩
  · exact (Calm.refl s).obeys

theorem execResumeTimerExpiry_obeys (h : execResumeTimerExpiry s = .next t) : Obeys .resumeTimerExpiry s t := by
  cases h
  refine Obeys.finish ?_
  split
  · exact (Calm.refl s).obeys
  split
  · rename_i hj
    exact ((reach_calm s _).enters (resumeRunning_enters _)).obeys ⟨hj, rfl⟩
  · exact (Calm.refl s).obeys

theorem execSettleTimerExpiry_obeys {k : Target} (h : execSettleTimerExpiry k s = .next t) :
    Obeys (.settleTimerExpiry k) s t := by
  cases h
  refine (Calm.obeys ?_).finish
  split
  · exact .refl s
  split
  · rename_i c hc _
    have hk : c.target = k := by simpa using List.find?_some hc
    exact (reach_calm s _).trans (settleClaim_calm _ c (by rw [hk]))
  · exact .refl s

theorem execRequestTimerExpiry_obeys {bay : Nat} (h : execRequestTimerExpiry bay s = .next t) :
    Obeys (.requestTimerExpiry bay) s t := by
  cases h
  refine (Calm.obeys ?_).finish
  split
  · split
    · exact .refl s
    · exact (reach_calm s _).trans (timeoutTruckReq_calm _ bay _)
  · exact .refl s

theorem execStart_obeys (h : execStart s = .next t) : Obeys .start s t := by
  cases h
  refine (takeRequest_obeys fun tag r hroom ha _ => ?_).finish
  have hc : s.rlc.nodeState = .config := by simpa [acceptedIn] using ha
  have answered : ∀ st why c, Calm (fun k => Instr.start = .settleTimerExpiry k) (dropRequest s)
      (answer (dropRequest s) tag r st why c) := fun _ _ _ => answer_calm hroom _ _ _ _ _
  unfold serveStart
  split
  · exact (answered _ _ _).obeys
  · exact (((answered _ _ _).trans (takeImage_calm _ _)).enters (enterJoining_enters _)).obeys ⟨hc, rfl⟩

theorem execRestart_obeys {p : Straps} (h : execRestart p s = .next t) : Obeys (.restart p) s t := by
  cases h
  refine (takeRequest_obeys fun tag r hroom _ hn => ?_).finish
  obtain ⟨kept, node⟩ := softReset_kept (x := fun k => Instr.restart p = .settleTimerExpiry k)
    (answer (dropRequest s) tag r .ok .none .none) p
  have image : (answer (dropRequest s) tag r .ok .none .none).cpt.image = s.cpt.image := by
    unfold answer
    dsimp only
    split <;> rfl
  exact ⟨(answer_calm hroom _ _ _ _ _).toKept.trans kept, .inr ⟨hn, image ▸ node⟩, fun _ h => absurd rfl (h p)⟩

theorem execPark_obeys (h : execPark s = .next t) : Obeys .park s t := by
  cases h
  refine (takeRequest_obeys fun tag r hroom ha _ => ?_).finish
  have hc : s.rlc.nodeState = .running := by simpa [acceptedIn] using ha
  have answered : ∀ st why c, Calm (fun k => Instr.park = .settleTimerExpiry k) (dropRequest s)
      (answer (dropRequest s) tag r st why c) := fun _ _ _ => answer_calm hroom _ _ _ _ _
  unfold servePark
  split
  · exact (answered _ _ _).obeys
  split
  · exact (answered _ _ _).obeys
  · exact ((answered _ _ _).enters (enterParked_enters _)).obeys ⟨hc, rfl⟩

theorem execUnpark_obeys (h : execUnpark s = .next t) : Obeys .unpark s t := by
  cases h
  refine (takeRequest_obeys fun tag r hroom ha _ => ?_).finish
  have hc : s.rlc.nodeState = .parked := by simpa [acceptedIn] using ha
  exact ((answer_calm hroom tag r .ok .none .none).enters (enterResuming_enters _)).obeys ⟨hc, rfl⟩

/-! ### The reads -/

variable {x : Target → Prop} (tag : ReqTag) (r : Request)

theorem serveReadSlot_calm (h : RoomForResponse s) : Calm x s (serveReadSlot s tag r) := by
  unfold serveReadSlot
  split
  · split <;> exact answer_calm h _ _ _ _ _
  · exact .refl s

theorem serveReadPeer_calm (h : RoomForResponse s) : Calm x s (serveReadPeer s tag r) := by
  unfold serveReadPeer
  split
  · split <;> exact answer_calm h _ _ _ _ _
  · exact .refl s

theorem serveReadTruck_calm (h : RoomForResponse s) : Calm x s (serveReadTruck s tag r) := by
  unfold serveReadTruck
  split
  · split <;> exact answer_calm h _ _ _ _ _
  · exact .refl s

theorem serveReadOrder_calm (h : RoomForResponse s) : Calm x s (serveReadOrder s tag r) := by
  unfold serveReadOrder
  split
  · split <;> exact answer_calm h _ _ _ _ _
  · exact .refl s

end

/-- What every command keeps. -/
theorem exec_obeys {c : Instr} {s t : State} (h : exec c s = .next t) : Obeys c s t := by
  cases c
  case powerOn => exact execPowerOn_obeys h
  case resetPinAssert => exact execResetPinAssert_obeys h
  case resetRelease p => exact execResetRelease_obeys h
  case lineBusy =>
    cases h
    refine Calm.obeys ?_
    exact .of_rlc id id rfl rfl rfl
  case lineIdle =>
    cases h
    refine Calm.obeys ?_
    exact .of_rlc id id rfl rfl rfl
  case txWaitExpiry =>
    cases h
    refine Calm.obeys ?_
    split
    · exact .of_rlc id id rfl rfl rfl
    · exact .refl s
  case txBitMismatch =>
    cases h
    refine Calm.obeys ?_
    split
    · exact failAttempt_calm s
    · exact .refl s
  case txFrameEnd =>
    cases h
    refine Calm.obeys ?_
    split
    · exact frameSent_calm s
    · exact .refl s
  case runwayFrameBad bytes =>
    cases h
    refine Calm.obeys ?_
    split
    · exact .of_rlc id id rfl rfl rfl
    · exact .refl s
  case rxJoin n serial pattern x => exact execRxJoin_obeys h
  case rxWelcome n serial pattern joiner => exact execRxWelcome_obeys h
  case rxBeacon n serial b => exact execRxBeacon_obeys h
  case rxProfile n serial p => exact execRxProfile_obeys h
  case rxClaim n serial k prio => exact execRxClaim_obeys h
  case rxRelease n serial k => exact execRxRelease_obeys h
  case rxNotice n serial k => exact execRxNotice_obeys h
  case rxTruckState n serial bay version content => exact execRxTruckState_obeys h
  case beaconTimerExpiry =>
    cases h
    refine Calm.obeys ?_
    split
    · exact .refl s
    split
    · exact (reach_calm s _).trans (queueBeacon_calm _)
    · exact .refl s
  case profileTimerExpiry =>
    cases h
    refine Calm.obeys ?_
    split
    · exact .refl s
    split
    · exact (reach_calm s _).trans (queueProfile_calm _)
    · exact .refl s
  case profileDelayExpiry => exact execProfileDelayExpiry_obeys h
  case welcomeDelayExpiry => exact execWelcomeDelayExpiry_obeys h
  case joinRepeatExpiry =>
    cases h
    refine Calm.obeys ?_
    split
    · exact .refl s
    split
    · rename_i d _ _
      refine (reach_calm s d).trans (.trans ?_ (offer_calm _ _))
      exact .of_rlc id id rfl rfl rfl
    · exact .refl s
  case joinTimerExpiry => exact execJoinTimerExpiry_obeys h
  case resumeTimerExpiry => exact execResumeTimerExpiry_obeys h
  case lineTxFail =>
    cases h
    refine Calm.obeys ?_
    split
    · refine .trans ?_ (emit_calm _ _)
      exact .of_rlc id id rfl rfl rfl
    · exact .refl s
  case peerStale n =>
    cases h
    refine (Calm.obeys ?_).finish
    split
    · exact .refl s
    split
    · rename_i p hp _
      refine (reach_calm s (p.heard + staleLimit p + 1)).trans ?_
      exact changeLiveness_calm (s := s.reach _) (mem_of_peerAt hp).1 _ _
    · exact .refl s
  case peerLost n =>
    cases h
    refine (Calm.obeys ?_).finish
    split
    · exact .refl s
    split
    · rename_i p hp _
      refine (reach_calm s (p.heard + lostLimit p + 1)).trans ?_
      exact changeLiveness_calm (s := s.reach _) (mem_of_peerAt hp).1 _ _
    · exact .refl s
  case settleTimerExpiry k => exact execSettleTimerExpiry_obeys h
  case refreshTimerExpiry =>
    cases h
    refine Calm.obeys (.trans ?_ (compute_calm _))
    split
    · exact .refl s
    · exact reach_calm s _
  case requestTimerExpiry bay => exact execRequestTimerExpiry_obeys h
  case sessionTimeout =>
    cases h
    refine (Calm.obeys ?_).finish
    split
    · exact (reach_calm s _).trans ((timeoutSession_moves (.refl _) _ _).calm_of_claims (by simp))
    · exact .refl s
  case captureTimerExpiry =>
    cases h
    refine (Calm.obeys ?_).finish
    split
    · exact (reach_calm s _).trans ((completeCapture_moves (.refl _) _ _).calm_of_claims (by simp))
    · exact .refl s
  case loadCellLost =>
    cases h
    refine (Calm.obeys ?_).finish
    split
    · exact (reach_calm s _).trans ((loseCell_moves (.refl _)).calm_of_claims (by simp))
    · exact .refl s
  case positionStale =>
    cases h
    refine (Calm.obeys ?_).finish
    split
    · exact (reach_calm s _).trans (goStale_calm _)
    · exact .refl s
  case orderWaiting =>
    cases h
    refine Calm.obeys ?_
    split
    · exact .refl s
    split
    · exact (reach_calm s _).trans (tellWaiting_calm _ _)
    · exact .refl s
  case loadCellSample raw saturated =>
    cases h
    refine (Calm.obeys ?_).finish
    split
    · exact .refl s
    · exact takeLoad_calm s raw saturated
  case loadCellBadWord =>
    cases h
    refine Calm.obeys ?_
    split
    · exact .refl s
    · exact ⟨⟨id, id, id, id, id, id, .of_claims rfl⟩, rfl, rfl, rfl⟩
  case cpFrameReceived f =>
    cases h
    refine Calm.obeys ?_
    split
    · exact .refl s
    · exact receivePort_calm s f
  case positionSample bytes =>
    cases h
    refine (Calm.obeys ?_).finish
    split
    · exact .refl s
    · exact readPosition_calm s bytes
  case unknownRequestTaken => exact (execUnknownRequestTaken_calm s h).obeys
  case configure => cases h; exact request_obeys fun _ tag r h _ => serveConfigure_calm tag r h
  case start => exact execStart_obeys h
  case restart p => exact execRestart_obeys h
  case park => exact execPark_obeys h
  case unpark => exact execUnpark_obeys h
  case submitOrder => cases h; exact request_obeys fun _ tag r h _ => by split; exacts [serveSubmit_calm tag _ h _, .refl _]
  case cancelOrder => cases h; exact request_obeys fun _ tag r h _ => by split; exacts [serveCancel_calm tag _ h _, .refl _]
  case redirect => cases h; exact request_obeys fun _ tag r h _ => by split; exacts [serveRedirect_calm tag _ h _ _, .refl _]
  case truckArrive => cases h; exact request_obeys fun _ tag r h _ => by split; exacts [serveTruck_calm tag _ h _ _, .refl _]
  case truckReady => cases h; exact request_obeys fun _ tag r h _ => by split; exacts [serveTruck_calm tag _ h _ _, .refl _]
  case truckHold => cases h; exact request_obeys fun _ tag r h _ => by split; exacts [serveTruck_calm tag _ h _ _, .refl _]
  case truckDepart => cases h; exact request_obeys fun _ tag r h _ => by split; exacts [serveTruck_calm tag _ h _ _, .refl _]
  case mapLoad => cases h; exact request_obeys fun _ tag r h _ => by split; exacts [serveMapLoad_calm tag _ h _ _ _, .refl _]
  case slotBlock => cases h; exact request_obeys fun _ tag r h _ => by split; exacts [serveBlock_calm tag _ h _ _, .refl _]
  case slotUnblock => cases h; exact request_obeys fun _ tag r h _ => by split; exacts [serveBlock_calm tag _ h _ _, .refl _]
  case claimForceClear => cases h; exact request_obeys fun _ tag r h _ => by split; exacts [serveForceClear_calm tag _ h _, .refl _]
  case weighVerifyZero => cases h; exact request_obeys fun _ tag r h _ => serveVerifyZero_calm tag r h
  case weighVerifySpan => cases h; exact request_obeys fun _ tag r h _ => by split; exacts [serveVerifySpan_calm tag _ h _ _, answer_calm h _ _ _ _ _]
  case readStatus => cases h; exact (takeRequest_calm fun _ tag r h _ _ => answer_calm h tag r _ _ _).obeys
  case readSlot => cases h; exact (takeRequest_calm fun _ tag r h _ _ => serveReadSlot_calm tag r h).obeys
  case readSlots => cases h; exact (takeRequest_calm fun _ tag r h _ _ => serveReadSlots_calm tag r h).obeys
  case readPeer => cases h; exact (takeRequest_calm fun _ tag r h _ _ => serveReadPeer_calm tag r h).obeys
  case readTruck => cases h; exact (takeRequest_calm fun _ tag r h _ _ => serveReadTruck_calm tag r h).obeys
  case readOrder => cases h; exact (takeRequest_calm fun _ tag r h _ _ => serveReadOrder_calm tag r h).obeys
  case slotStreamRecord => exact (execSlotStreamRecord_calm s h).obeys
  case outputRecordSent => exact (execOutputRecordSent_calm s h).obeys

/-- What a step keeps, with the command at the front of the queue. -/
theorem step_obeys {s t : State} (h : step s = .next t) :
    Calm (fun _ => False) s t ∧ s.pending = []
      ∨ ∃ c rest, s.pending = c :: rest ∧ Obeys c { s with pending := rest } t := by
  unfold step at h
  split at h
  · cases h
    exact .inl ⟨tick_calm s, ‹_›⟩
  · exact .inr ⟨_, _, ‹_›, exec_obeys h⟩

/-- What a step keeps, but for the claims that a settle timer makes HELD. -/
theorem step_kept {s t : State} (h : step s = .next t) :
    Kept (fun k => s.pending.head? = some (.settleTimerExpiry k)) s t := by
  rcases step_obeys h with ⟨hc, _⟩ | ⟨c, rest, hp, hc⟩
  · exact { hc.toKept with held := fun d hm hh => (hc.held d hm hh).imp_left False.elim }
  · have hk := hc.kept
    exact
      { output := hk.output
        buffers := hk.buffers
        claims := hk.claims
        orders := hk.orders
        weigh := hk.weigh
        peers := hk.peers
        held := fun d hm hh => (hk.held d hm hh).imp_left fun e => by rw [hp, e]; rfl }

end Sys2Proof.Machine

namespace Sys2Proof.Machine

/-- Settles O3: every command is a sequence of moves and plain changes, each within the limits. -/
theorem stepKeepsQueueAndListLimits : Obligations.StepKeepsQueueAndListLimits := by
  refine ⟨⟨fun s t h hs => (step_kept hs).output h, fun s t h hs => (step_kept hs).buffers h⟩, fun s t hs => ?_⟩
  have hk := step_kept hs
  exact ⟨hk.claims, hk.orders, hk.weigh, hk.peers⟩

/-- Settles O6: the entries to the node states are those of section 1.9, and only the settle timer's claim becomes HELD. -/
theorem nodeStateAndHeldChangeOnlyByTheirEvents : Obligations.NodeStateAndHeldChangeOnlyByTheirEvents := by
  refine ⟨fun s t h => ?_, fun s t c h hc hh hp => ?_⟩
  · rcases step_obeys h with ⟨hc, _⟩ | ⟨c, rest, hp, hc⟩
    · exact .inl hc.node
    · exact hc.node.imp_right fun he => ⟨c, by simp [hp], he⟩
  · exact ((step_kept h).held c hc hh).resolve_left hp

/-- Settles O2: after reset every queue and list is empty, and the permits are 0. -/
theorem resetStateKeepsEveryLimit : Obligations.ResetStateKeepsEveryLimit := by
  refine ⟨?_, ?_, ?_, ?_, fun bay => ?_, ?_, ?_, fun _ => rfl, fun _ => rfl, rfl⟩
  · simp [OutputOk, State.reset, Cpt.fresh, waitingOut]
  · simp [ClaimsOk, State.reset, Clu.fresh]
  · simp [OrdersOk, State.reset, Moc.fresh, queueIds]
  · simp [WeighOk, State.reset, Wgu.fresh]
  · match bay with
    | 0 | 1 | 2 | 3 | _ + 4 => trivial
  · simp [PeersOk, State.reset, Ptb.fresh]
  · simp [BuffersOk, State.reset, Rlc.fresh, Cpt.fresh]

end Sys2Proof.Machine
end

section
/-! The offers to the queues, line access and unusable input: one lemma for each branch of an offer, and the commands of
section 1.1 by the state of the line. -/

namespace Sys2Proof.Machine

/-! ## Offers -/

section
variable (s : State) (i : TxItem)

/-- A waiting BEACON or PROFILE is replaced: at most the attempts of the head frame start anew (R1). -/
theorem offer_waiting (h : isRefilled i = true ∧ i ∈ waitingFrames s.rlc) :
    (s.offer i).rlc.queue = s.rlc.queue ∧ (s.offer i).rlc.txDropped = s.rlc.txDropped := by
  rw [State.offer, if_pos h]
  split <;> exact ⟨rfl, rfl⟩

theorem offer_joins (h : ¬(isRefilled i = true ∧ i ∈ waitingFrames s.rlc)) (room : s.rlc.queue.length < 16) :
    (s.offer i).rlc.queue = s.rlc.queue ++ [i] ∧ (s.offer i).rlc.txDropped = s.rlc.txDropped := by
  rw [State.offer, if_neg h, if_neg (by omega)]
  dsimp only
  split
  · rw [beginAttempt_frame]
    exact ⟨rfl, rfl⟩
  · exact ⟨rfl, rfl⟩

theorem offer_drops (h : ¬(isRefilled i = true ∧ i ∈ waitingFrames s.rlc)) (full : 16 ≤ s.rlc.queue.length) :
    s.offer i = { s with rlc.txDropped := satAdd s.rlc.txDropped 1 } := by
  rw [State.offer, if_neg h, if_pos full]

end

/-- Settles O19: the branches of an offered event, and of an offered frame. -/
theorem offersAreQueuedOrCounted : Obligations.OffersAreQueuedOrCounted := by
  refine ⟨fun s e => ⟨fun hl hn => ?_, fun hl hn => ?_, fun hl hn => ?_, fun hl hn => ?_⟩, fun s i => ⟨?_, ?_, ?_, ?_⟩⟩
  · simp only [State.emit, offerEvent, if_pos hl, if_pos hn, pushOut, State.stamp]
  · simp only [State.emit, offerEvent, if_pos hl, if_neg (Nat.not_lt.mpr hn), dropEvent, satAdd]
  · simp only [State.emit, offerEvent, if_neg hl, if_pos (Nat.add_le_add_right hn 2), pushOut, State.stamp]
  · simp only [State.emit, offerEvent, if_neg hl, if_neg (show ¬ waitingOut isEvent s.cpt.out + 2 ≤ 48 by omega),
      dropEvent, satAdd]
  · exact offer_frame s i
  · exact fun hi hw => offer_waiting s i ⟨hi, hw⟩
  · exact offer_joins s i
  · intro hw full
    rw [offer_drops s i hw full]
    exact ⟨rfl, rfl⟩

/-! ## Line access -/

/-- The wait that an attempt drawn in a state begins with (R2). -/
def drawnAccess (s : State) : Access := if s.rlc.lineBusy then .suspended (s.drawn % 16) else .counting (s.drawn % 16)

theorem beginAttempt_of_empty {s : State} (h : s.rlc.queue = []) :
    s.beginAttempt = { s with rlc.access := .none, rlc.attempts := 0, rlc.wire := [] } := by
  rw [State.beginAttempt, h]

theorem beginAttempt_of_ne {s : State} (h : s.rlc.queue ≠ []) :
    s.beginAttempt = { s with draws := s.draws + 1, rlc.access := drawnAccess s, rlc.wire := [] } := by
  obtain ⟨i, rest, hq⟩ := List.exists_cons_of_ne_nil h
  rw [State.beginAttempt, hq]
  rfl

/-- The head frame leaves: the line access is none with no frame left, else that of a new attempt (R3). -/
theorem dropHead_eq (s : State) :
    s.dropHead = { s with
      draws := s.dropHead.draws,
      rlc := { s.rlc with queue := s.rlc.queue.drop 1, attempts := 0, wire := [], access := s.dropHead.rlc.access } }
      ∧ (s.rlc.queue.length ≤ 1 → s.dropHead.rlc.access = .none)
      ∧ (2 ≤ s.rlc.queue.length → s.dropHead.rlc.access = drawnAccess s) := by
  rcases Nat.lt_or_ge s.rlc.queue.length 2 with hl | hl
  · have empty : s.rlc.queue.drop 1 = [] := List.drop_eq_nil_of_le (by omega)
    rw [State.dropHead, beginAttempt_of_empty (by exact empty)]
    exact ⟨rfl, fun _ => rfl, fun h => absurd h (by omega)⟩
  · have left : s.rlc.queue.drop 1 ≠ [] := by
      rw [ne_eq, List.drop_eq_nil_iff]
      omega
    rw [State.dropHead, beginAttempt_of_ne (by exact left)]
    exact ⟨rfl, fun h => absurd h (by omega), fun _ => rfl⟩

theorem drawnAccess_bound (s : State) :
    ∃ b, b ≤ 15 ∧ drawnAccess s = if s.rlc.lineBusy then .suspended b else .counting b :=
  ⟨s.drawn % 16, by omega, rfl⟩

theorem suspend_of_not_counting {a : Access} (h : ∀ b, a ≠ .counting b) : suspend a = a := by
  cases a with
  | counting b => exact absurd rfl (h b)
  | suspended | none | sending => rfl

theorem resume_of_not_suspended {a : Access} (h : ∀ b, a ≠ .suspended b) : resume a = a := by
  cases a with
  | suspended b => exact absurd rfl (h b)
  | counting | none | sending => rfl

/-- Settles O21: each line command in the states of the line access it acts on. -/
theorem lineAccessOfTheHeadFrame : Obligations.LineAccessOfTheHeadFrame := by
  refine ⟨fun s => ⟨_, rfl, rfl, fun b h => ?_, fun h => ?_⟩, fun s => ⟨_, rfl, rfl, fun b h => ?_, fun h => ?_⟩,
    fun s b i rest ha hq => ?_, fun s ha hq hn => ?_, fun s ha hn => ?_, fun s ha => ?_⟩
  · exact congrArg suspend h
  · exact suspend_of_not_counting h
  · exact congrArg resume h
  · exact resume_of_not_suspended h
  · have sends : execTxWaitExpiry s = .next (startSending s i) := by simp only [execTxWaitExpiry, ha, hq]
    exact sends
  · obtain ⟨b, hb, hd⟩ := drawnAccess_bound s
    refine ⟨b, hb, ?_⟩
    change execTxBitMismatch s = _
    rw [execTxBitMismatch, if_pos ha, failAttempt, if_neg (by omega), beginAttempt_of_ne (by exact hq), ← hd]
    rfl
  · obtain ⟨eq, none, some⟩ := dropHead_eq { s with rlc.txDropped := satAdd s.rlc.txDropped 1 }
    refine ⟨_, ?_, eq, none, fun h => ?_⟩
    · change execTxBitMismatch s = _
      rw [execTxBitMismatch, if_pos ha, failAttempt, if_pos hn]
    · obtain ⟨b, hb, hd⟩ := drawnAccess_bound s
      exact ⟨b, hb, (some h).trans hd⟩
  · obtain ⟨eq, none, some⟩ := dropHead_eq { s with rlc.txSince := s.now, rlc.txFail := false }
    refine ⟨_, ?_, eq, none, fun h => ?_⟩
    · change execTxFrameEnd s = _
      rw [execTxFrameEnd, if_pos ha, frameSent]
    · obtain ⟨b, hb, hd⟩ := drawnAccess_bound s
      exact ⟨b, hb, (some h).trans hd⟩

/-! ## Unusable input -/

theorem reqKindOf_reqCode (k : ReqKind) : Codec.reqKindOf (Codec.reqCode k) = some k := by
  cases k <;> decide

theorem reqCode_pos (k : ReqKind) : 1 ≤ Codec.reqCode k ∧ Codec.reqCode k ≤ 24 := by
  cases k <;> decide

theorem reqKindOf_eq_none {code : Nat} (h : code = 0 ∨ 25 ≤ code) : Codec.reqKindOf code = none := by
  rw [Codec.reqKindOf, List.find?_eq_none]
  intro k _ hk
  have := reqCode_pos k
  have := eq_of_beq hk
  omega

/-- What an opened frame is buffered as: by its kind first, then by its length and the request it spells (R199). -/
theorem bufferOf_cases (h : Codec.PortFrame) (q : Option Request) :
    (h.kind = 0 ∨ 25 ≤ h.kind → bufferOf h q = .bad h.seq (.unknown h.kind) .unknownKind)
      ∧ ∀ k, Codec.reqCode k = h.kind →
        (∀ r, q = some r → reqKind r = k → h.payload.length = h.length →
            bufferOf h q = .request { seq := h.seq, payload := h.payload } r)
        ∧ (q = none ∨ (∃ r, q = some r ∧ reqKind r ≠ k) ∨ h.payload.length ≠ h.length →
            bufferOf h q = .bad h.seq (.known k) .length) := by
  refine ⟨fun hk => by rw [bufferOf, reqKindOf_eq_none hk], fun k hk => ?_⟩
  have known : Codec.reqKindOf h.kind = some k := hk ▸ reqKindOf_reqCode k
  refine ⟨fun r hq hr hl => ?_, fun hbad => ?_⟩
  · subst hq
    simp only [bufferOf, known, if_pos (And.intro hl hr)]
  · cases q with
    | none => simp only [bufferOf, known]
    | some r =>
      have : ¬(h.payload.length = h.length ∧ reqKind r = k) := by
        rintro ⟨hl, hr⟩
        rcases hbad with h0 | ⟨r', h1, h2⟩ | h3
        · cases h0
        · cases h1
          exact h2 hr
        · exact h3 hl
      simp only [bufferOf, known, if_neg this]

/-- An opened POSITION frame is usable where its bytes decode to one with a grip state that is a code. -/
theorem usablePosition_iff {bytes : List Byte} {h : Codec.PortFrame} (ho : Codec.openPort bytes = some h)
    (hk : h.kind = 32) : Codec.usablePosition h = true ↔
      ∃ p g, Codec.decodePosition bytes = some p ∧ Codec.gripOf p.gripCode = some g := by
  have : Codec.decodePosition bytes = Codec.positionOf h := by
    rw [Codec.decodePosition, ho, Option.bind_some, if_pos hk]
  rw [this, Codec.usablePosition, Option.isSome_iff_exists]
  simp only [Option.bind_eq_some_iff]
  exact exists_comm

/-- Settles O22: what each kind of unusable input is counted in, and what a good port frame is buffered as. -/
theorem badInputIsCountedAlone : Obligations.BadInputIsCountedAlone := by
  refine ⟨fun s bytes hn hd => ?_, fun s hn => ?_, fun s f hn => ?_⟩
  · change execRunwayFrameBad bytes s = _
    rw [execRunwayFrameBad, if_pos ⟨hn, hd⟩]
    rfl
  · change execLoadCellBadWord s = _
    rw [execLoadCellBadWord, if_neg hn]
    rfl
  · have exec_eq : exec (.cpFrameReceived f) s = .next (receivePort f s) := by
      change execCpFrameReceived f s = _
      rw [execCpFrameReceived, if_neg hn]
    simp only [exec_eq]
    refine ⟨fun ho => ?_, fun h ho => ⟨fun hk => ⟨fun hu => ?_, fun hu => ?_⟩, fun hk hl => ?_, fun hk hl => ?_⟩⟩
    · simp only [receivePort, ho]
      rfl
    · simp only [receivePort, ho, if_pos hk, if_pos ((usablePosition_iff ho hk).mpr hu)]
    · simp only [receivePort, ho, if_pos hk, if_neg (mt (usablePosition_iff ho hk).mp hu)]
      rfl
    · simp only [receivePort, ho, if_neg hk, bufferFrame, if_pos hl]
      rfl
    · have joins {b : BufFrame} (hb : bufferOf h f.request = b) :
          (.next (receivePort f s) : Answer)
            = .next { s with cpt := { s.cpt with reqBuf := s.cpt.reqBuf ++ [b] } } := by
        simp only [receivePort, ho, if_neg hk, bufferFrame, if_neg (Nat.not_le.mpr hl), hb]
      obtain ⟨unknown, known⟩ := bufferOf_cases h f.request
      exact ⟨fun h0 => joins (unknown h0), fun k hkind =>
        ⟨fun r hq hr hlen => joins ((known k hkind).1 r hq hr hlen), fun hbad => joins ((known k hkind).2 hbad)⟩⟩

end Sys2Proof.Machine
end

section
/-! SUPPORT. What the schedules of the line leave as it was, and what the transmit queue holds behind a sequence of
offers. -/

namespace Sys2Proof.Machine

/-! ## The frame of the hand-ons, behind a change of one block -/

section
variable {s t u : State}

/-- A change of the peer table made on both sides. -/
theorem HandOnFrame.with_ptb (h : HandOnFrame s t) (p : Ptb) : HandOnFrame { s with ptb := p } { t with ptb := p } := by
  obtain ⟨h1, h2, -, h4, h5, h6, h7, h8, h9, h10, h11, h12⟩ := h
  exact ⟨h1, h2, rfl, h4, h5, h6, h7, h8, h9, h10, h11, h12⟩

/-- A change of the slot map made on both sides. -/
theorem HandOnFrame.with_smu (h : HandOnFrame s t) (m : Smu) : HandOnFrame { s with smu := m } { t with smu := m } := by
  obtain ⟨h1, h2, h3, -, h5, h6, h7, h8, h9, h10, h11, h12⟩ := h
  exact ⟨h1, h2, h3, rfl, h5, h6, h7, h8, h9, h10, h11, h12⟩

/-- A change of the RLC, apart from the fields that hand-ons change, made on both sides. -/
theorem HandOnFrame.with_rlc (h : HandOnFrame s t) (f : Rlc → Rlc)
    (hf : ∀ (r : Rlc) q a n w d k,
      f { r with queue := q, access := a, attempts := n, wire := w, txDropped := d, truckWin := k }
        = { f r with queue := q, access := a, attempts := n, wire := w, txDropped := d, truckWin := k }) :
    HandOnFrame { s with rlc := f s.rlc } { t with rlc := f t.rlc } := by
  obtain ⟨h1, h2, h3, h4, h5, h6, h7, h8, h9, h10, h11, h12⟩ := h
  refine ⟨h1, h2, h3, h4, h5, h6, ?_, h8, h9, h10, h11, h12⟩
  rw [h7, hf]

end

/-! ## Schedules -/

/-- Nothing but the draws, the transmit queue with its line access, the BEACON interval and the repeat windows differs. -/
def Lined (s t : State) : Prop :=
  t = { s with
    draws := t.draws,
    rlc := { s.rlc with queue := t.rlc.queue, access := t.rlc.access, attempts := t.rlc.attempts, wire := t.rlc.wire,
                        txDropped := t.rlc.txDropped, beaconDue := t.rlc.beaconDue, notices := t.rlc.notices,
                        truckWin := t.rlc.truckWin } }

section
variable {s t u : State}

theorem Lined.refl (s : State) : Lined s s := rfl

theorem Lined.trans (h : Lined s t) (k : Lined t u) : Lined s u := by
  unfold Lined at *
  rw [k, h]

theorem Lined.tbu (h : Lined s t) : t.tbu = s.tbu := by
  unfold Lined at h
  rw [h]

theorem Lined.now (h : Lined s t) : t.now = s.now := by
  unfold Lined at h
  rw [h]

theorem offer_lined (s : State) (i : TxItem) : Lined s (s.offer i) := by
  unfold Lined
  rw [offer_frame]

theorem startInterval_lined (s : State) : Lined s s.startInterval := by
  unfold State.startInterval
  split <;> rfl

theorem repeatNotices_lined (s : State) : Lined s s.repeatNotices := by
  have offers : ∀ (l : List NoticeWindow) (t : State),
      Lined t (l.foldl (fun t w => t.offer (.fixed (.notice w.notice))) t) := by
    intro l
    induction l with
    | nil => exact fun t => .refl t
    | cons w l ih => exact fun t => (offer_lined t _).trans (ih _)
  refine (offers s.rlc.notices s).trans ?_
  rfl

theorem repeatTruck_lined (s : State) (bay : Nat) : Lined s (s.repeatTruck bay) := by
  unfold State.repeatTruck
  split
  · exact .refl s
  · refine .trans ?_ (offer_lined _ _)
    rfl

theorem queueBeacon_lined (s : State) : Lined s s.queueBeacon :=
  (startInterval_lined s).trans ((offer_lined _ _).trans ((repeatNotices_lined _).trans ((repeatTruck_lined _ 1).trans
    ((repeatTruck_lined _ 2).trans ((repeatTruck_lined _ 3).trans (repeatTruck_lined _ 4))))))

/-- The line schedules keep the frame of the hand-ons, but for the BEACON interval and the notices. -/
theorem Lined.frame (h : Lined s t) :
    HandOnFrame { s with rlc := { s.rlc with beaconDue := t.rlc.beaconDue, notices := t.rlc.notices } } t := by
  unfold Lined at h
  rw [h]
  exact ⟨rfl, rfl, rfl, rfl, rfl, rfl, rfl, rfl, .inl rfl, rfl, rfl, rfl⟩

end

/-! ## Offers in sequence -/

/-- The transmit queue of `t` is that of `s` behind offers of the items of `l`, some of them perhaps dropped or put in
the place of a waiting frame; fixed frames that find room all join. -/
structure Offered (s : State) (l : List TxItem) (t : State) : Prop where
  grows : s.rlc.queue <+: t.rlc.queue
  mem : ∀ i ∈ t.rlc.queue, i ∈ s.rlc.queue ∨ i ∈ l
  length : t.rlc.queue.length ≤ s.rlc.queue.length + l.length
  joins : (∀ i ∈ l, isRefilled i = false) → s.rlc.queue.length + l.length ≤ 16 → t.rlc.queue = s.rlc.queue ++ l

section
variable {s t u : State} {l m : List TxItem}

theorem Offered.of_queue (h : t.rlc.queue = s.rlc.queue) : Offered s [] t :=
  ⟨h ▸ List.prefix_rfl, fun _ hi => .inl (h ▸ hi), by simp [h], fun _ _ => by simp [h]⟩

theorem Offered.of_start (h : u.rlc.queue = s.rlc.queue) (k : Offered u l t) : Offered s l t :=
  ⟨h ▸ k.grows, fun i hi => h ▸ k.mem i hi, h ▸ k.length, fun hf hl => h ▸ k.joins hf (h.symm ▸ hl)⟩

theorem Offered.trans (h : Offered s l t) (k : Offered t m u) : Offered s (l ++ m) u where
  grows := h.grows.trans k.grows
  mem i hi := by
    rcases k.mem i hi with hi | hi
    · exact (h.mem i hi).imp_right (List.mem_append_left m)
    · exact .inr (List.mem_append_right l hi)
  length := by
    have := h.length
    have := k.length
    simp only [List.length_append]
    omega
  joins hf hl := by
    simp only [List.length_append] at hl
    have ht := h.joins (fun i hi => hf i (List.mem_append_left m hi)) (by omega)
    rw [k.joins (fun i hi => hf i (List.mem_append_right l hi)) (by simp [ht]; omega), ht, List.append_assoc]

/-- The queue behind an offer is the queue as it was, or the queue with the item behind it. -/
theorem offer_queue (s : State) (i : TxItem) :
    (s.offer i).rlc.queue = s.rlc.queue ∨ (s.offer i).rlc.queue = s.rlc.queue ++ [i] := by
  by_cases hw : isRefilled i = true ∧ i ∈ waitingFrames s.rlc
  · exact .inl (offer_waiting s i hw).1
  by_cases hl : s.rlc.queue.length < 16
  · exact .inr (offer_joins s i hw hl).1
  · rw [offer_drops s i hw (by omega)]
    exact .inl rfl

theorem offer_offered (s : State) (i : TxItem) : Offered s [i] (s.offer i) := by
  have joins : (∀ j ∈ [i], isRefilled j = false) → s.rlc.queue.length + 1 ≤ 16 →
      (s.offer i).rlc.queue = s.rlc.queue ++ [i] := fun hf hl =>
    (offer_joins s i (by simp [hf i (by simp)]) (by omega)).1
  rcases offer_queue s i with h | h
  · exact ⟨h ▸ List.prefix_rfl, fun _ hj => .inl (h ▸ hj), by simp [h], joins⟩
  · exact ⟨h ▸ List.prefix_append _ _, fun j hj => List.mem_append.mp (h ▸ hj), by simp [h], joins⟩

/-- An offered BEACON or PROFILE waits in the queue where it finds room or one of its kind waits already. -/
theorem offer_mem (s : State) (i : TxItem)
    (h : s.rlc.queue.length < 16 ∨ (isRefilled i = true ∧ i ∈ waitingFrames s.rlc)) : i ∈ (s.offer i).rlc.queue := by
  by_cases hw : isRefilled i = true ∧ i ∈ waitingFrames s.rlc
  · rw [(offer_waiting s i hw).1]
    have waits : ∀ r : Rlc, i ∈ waitingFrames r → i ∈ r.queue := by
      intro r hr
      unfold waitingFrames at hr
      split at hr
      · exact List.mem_of_mem_drop hr
      · exact hr
    exact waits _ hw.2
  · rw [(offer_joins s i hw (h.resolve_right hw)).1]
    simp

/-- The frames that go out behind a BEACON: the notices in their windows, then the TRUCK_STATEs in theirs (R12, R13). -/
def repeats (s : State) : List TxItem :=
  (s.rlc.notices.map fun w => .fixed (.notice w.notice))
    ++ (([1, 2, 3, 4].filter fun b => (s.rlc.truckWin.get b).isSome).map fun b => .fixed (truckBody s b))

theorem repeats_fixed {i : TxItem} (h : i ∈ repeats s) : isRefilled i = false := by
  simp only [repeats, List.mem_append, List.mem_map] at h
  rcases h with ⟨w, _, rfl⟩ | ⟨b, _, rfl⟩ <;> rfl

theorem repeats_length (s : State) : (repeats s).length ≤ s.rlc.notices.length + 4 := by
  have := List.length_filter_le (fun b => (s.rlc.truckWin.get b).isSome) [1, 2, 3, 4]
  simp only [repeats, List.length_append, List.length_map]
  exact Nat.add_le_add_left this _

theorem repeatNotices_offered (s : State) :
    Offered s (s.rlc.notices.map fun w => .fixed (.notice w.notice)) s.repeatNotices := by
  have offers : ∀ (l : List NoticeWindow) (t : State), Offered t (l.map fun w => .fixed (.notice w.notice))
      (l.foldl (fun t w => t.offer (.fixed (.notice w.notice))) t) := by
    intro l
    induction l with
    | nil => exact fun t => .of_queue rfl
    | cons w l ih => exact fun t => (offer_offered t _).trans (ih _)
  have := (offers s.rlc.notices s).trans (Offered.of_queue (t := s.repeatNotices) rfl)
  rwa [List.append_nil] at this

/-- The window of a TRUCK_STATE after one of its sends (R13). -/
def sentWindow (w : Option TruckWindow) : Option TruckWindow :=
  w.bind fun w => if w.left ≤ 1 then none else some { w with left := w.left - 1 }

theorem repeatTruck_none {bay : Nat} (h : s.rlc.truckWin.get bay = none) : s.repeatTruck bay = s := by
  rw [State.repeatTruck, h]

theorem repeatTruck_some {bay : Nat} (h : (s.rlc.truckWin.get bay).isSome = true) :
    s.repeatTruck bay = State.offer
      { s with rlc.truckWin := s.rlc.truckWin.set bay (sentWindow (s.rlc.truckWin.get bay)) }
      (.fixed (truckBody s bay)) := by
  obtain ⟨w, hw⟩ := Option.isSome_iff_exists.mp h
  rw [State.repeatTruck, hw]
  rfl

theorem repeatTruck_offered (s : State) (bay : Nat) :
    Offered s (if (s.rlc.truckWin.get bay).isSome then [.fixed (truckBody s bay)] else []) (s.repeatTruck bay) := by
  by_cases h : (s.rlc.truckWin.get bay).isSome = true
  · rw [if_pos h, repeatTruck_some h]
    refine .of_start ?_ (offer_offered _ _)
    rfl
  · rw [if_neg h, repeatTruck_none (by simpa using h)]
    exact .of_queue rfl

theorem perBay_set_get {α : Type} (q : PerBay α) (b : Nat) : q.set b (q.get b) = q := by
  match b with
  | 0 | 1 | 2 | 3 | _ + 4 => rfl

@[simp] theorem repeatTruck_truckWin (s : State) (bay : Nat) :
    (s.repeatTruck bay).rlc.truckWin = s.rlc.truckWin.set bay (sentWindow (s.rlc.truckWin.get bay)) := by
  by_cases h : (s.rlc.truckWin.get bay).isSome = true
  · rw [repeatTruck_some h, offer_frame]
  · have h : s.rlc.truckWin.get bay = none := by simpa using h
    have self := perBay_set_get s.rlc.truckWin bay
    rw [h] at self
    rw [repeatTruck_none h, h]
    exact self.symm

end

/-! ## A queued BEACON -/

section
variable (s : State)

@[simp] theorem offer_truckWin (i : TxItem) : (s.offer i).rlc.truckWin = s.rlc.truckWin := by rw [offer_frame]

@[simp] theorem offer_beaconDue (i : TxItem) : (s.offer i).rlc.beaconDue = s.rlc.beaconDue := by rw [offer_frame]

@[simp] theorem startInterval_queue : s.startInterval.rlc.queue = s.rlc.queue := by
  unfold State.startInterval
  split <;> rfl

@[simp] theorem startInterval_access : s.startInterval.rlc.access = s.rlc.access := by
  unfold State.startInterval
  split <;> rfl

@[simp] theorem startInterval_truckWin : s.startInterval.rlc.truckWin = s.rlc.truckWin := by
  unfold State.startInterval
  split <;> rfl

@[simp] theorem startInterval_notices : s.startInterval.rlc.notices = s.rlc.notices := by
  unfold State.startInterval
  split <;> rfl

/-- The interval that begins: 100 to 120 ms in RUNNING and RESUMING, else 1,000 ms (R7). -/
theorem startInterval_due : ∃ d, s.startInterval.rlc.beaconDue = some d
    ∧ (s.rlc.nodeState = .running ∨ s.rlc.nodeState = .resuming → s.now + 100 ≤ d ∧ d ≤ s.now + 120)
    ∧ (s.rlc.nodeState ≠ .running → s.rlc.nodeState ≠ .resuming → d = s.now + 1000) := by
  have short : s.now + 100 ≤ s.now + 100 + s.drawn % 21 ∧ s.now + 100 + s.drawn % 21 ≤ s.now + 120 := by omega
  unfold State.startInterval
  split
  · exact ⟨_, rfl, fun _ => short, fun h => absurd ‹_› h⟩
  · exact ⟨_, rfl, fun _ => short, fun _ h => absurd ‹_› h⟩
  · rename_i h1 h2
    exact ⟨_, rfl, fun h => absurd h (by simp_all), fun _ _ => rfl⟩

@[simp] theorem repeatNotices_truckWin : s.repeatNotices.rlc.truckWin = s.rlc.truckWin := by
  have offers : ∀ (l : List NoticeWindow) (t : State),
      (l.foldl (fun t w => t.offer (.fixed (.notice w.notice))) t).rlc.truckWin = t.rlc.truckWin := by
    intro l
    induction l with
    | nil => exact fun t => rfl
    | cons w l ih => exact fun t => (ih _).trans (offer_truckWin t _)
  exact offers s.rlc.notices s

@[simp] theorem repeatNotices_beaconDue : s.repeatNotices.rlc.beaconDue = s.rlc.beaconDue := by
  have offers : ∀ (l : List NoticeWindow) (t : State),
      (l.foldl (fun t w => t.offer (.fixed (.notice w.notice))) t).rlc.beaconDue = t.rlc.beaconDue := by
    intro l
    induction l with
    | nil => exact fun t => rfl
    | cons w l ih => exact fun t => (ih _).trans (offer_beaconDue t _)
  exact offers s.rlc.notices s

@[simp] theorem repeatTruck_beaconDue (bay : Nat) : (s.repeatTruck bay).rlc.beaconDue = s.rlc.beaconDue := by
  unfold State.repeatTruck
  split
  · rfl
  · rw [offer_beaconDue]

@[simp] theorem repeatTruck_notices (bay : Nat) : (s.repeatTruck bay).rlc.notices = s.rlc.notices := by
  unfold State.repeatTruck
  split
  · rfl
  · rw [offer_notices]

@[simp] theorem queueBeacon_beaconDue : s.queueBeacon.rlc.beaconDue = s.startInterval.rlc.beaconDue := by
  simp [State.queueBeacon]

/-- The notices are sent once more each, and end with their last send (R12). -/
theorem queueBeacon_notices : s.queueBeacon.rlc.notices =
    (s.rlc.notices.filter fun w => decide (1 < w.left)).map fun w => { w with left := w.left - 1 } := by
  have sent : ∀ t : State, t.repeatNotices.rlc.notices =
      (t.rlc.notices.filter fun w => decide (1 < w.left)).map fun w => { w with left := w.left - 1 } := by
    intro t
    have keeps : (fun w : NoticeWindow => decide (0 < w.left)) ∘ (fun w : NoticeWindow => { w with left := w.left - 1 })
        = fun w : NoticeWindow => decide (1 < w.left) := by
      funext w
      simp only [Function.comp_apply, decide_eq_decide]
      omega
    rw [← keeps, ← List.filter_map]
    rfl
  simp [State.queueBeacon, sent]

/-- Each TRUCK_STATE window loses one send (R13). -/
theorem queueBeacon_truckWin {bay : Nat} (h1 : 1 ≤ bay) (h4 : bay ≤ 4) :
    s.queueBeacon.rlc.truckWin.get bay = sentWindow (s.rlc.truckWin.get bay) := by
  interval_cases bay <;> simp [State.queueBeacon, PerBay.set, PerBay.get]

/-- Behind the BEACON the repeats are offered, in their order (log entry 34). -/
theorem queueBeacon_offered : Offered (s.startInterval.offer .beacon) (repeats s) s.queueBeacon := by
  have tbu (t : State) (bay : Nat) : (t.repeatTruck bay).tbu = t.tbu := (repeatTruck_lined t bay).tbu
  have tbu0 : (s.startInterval.offer .beacon).repeatNotices.tbu = s.tbu :=
    (repeatNotices_lined _).tbu.trans ((offer_tbu _ _).trans (startInterval_lined s).tbu)
  have all := (repeatNotices_offered (s.startInterval.offer .beacon)).trans ((repeatTruck_offered _ 1).trans
    ((repeatTruck_offered _ 2).trans ((repeatTruck_offered _ 3).trans (repeatTruck_offered _ 4))))
  simp only [offer_notices, startInterval_notices, repeatTruck_truckWin, repeatNotices_truckWin, offer_truckWin,
    startInterval_truckWin, truckBody, tbu, tbu0] at all
  have list : repeats s = (s.rlc.notices.map fun w => .fixed (.notice w.notice))
      ++ ((if (s.rlc.truckWin.get 1).isSome then [.fixed (truckBody s 1)] else [])
      ++ ((if (s.rlc.truckWin.get 2).isSome then [.fixed (truckBody s 2)] else [])
      ++ ((if (s.rlc.truckWin.get 3).isSome then [.fixed (truckBody s 3)] else [])
      ++ (if (s.rlc.truckWin.get 4).isSome then [.fixed (truckBody s 4)] else [])))) := by
    simp only [repeats, List.filter_cons, List.filter_nil]
    split_ifs <;> rfl
  rw [list]
  exact all

end

end Sys2Proof.Machine
end

section
/-! The schedules of the line: which frames their timers queue, and what they leave as it was. -/

namespace Sys2Proof.Machine

/-! ## The earliest of some moments -/

theorem earliest_eq_some {l : List Nat} {t : Nat} (ht : t ∈ l) (hm : ∀ d ∈ l, t ≤ d) : earliest l = some t := by
  have min_of : ∀ l : List Nat, l ≠ [] → ∃ u ∈ l, earliest l = some u ∧ ∀ d ∈ l, u ≤ d := by
    intro l
    induction l with
    | nil => exact fun h => absurd rfl h
    | cons a l ih =>
      intro _
      rcases eq_or_ne l [] with rfl | hl
      · exact ⟨a, by simp, rfl, by simp⟩
      · obtain ⟨u, hu, he, hd⟩ := ih hl
        refine ⟨min a u, ?_, by rw [earliest, he], ?_⟩
        · rcases min_choice a u with h | h <;> simp [h, hu]
        · intro d hd'
          rcases List.mem_cons.mp hd' with rfl | h
          · exact min_le_left _ _
          · exact (min_le_right _ _).trans (hd d h)
  obtain ⟨u, hu, he, hd⟩ := min_of l (List.ne_nil_of_mem ht)
  rw [he, le_antisymm (hd t ht) (hm u hu)]

/-! ## Queued PROFILEs, WELCOMEs and JOINs -/

/-- A queued PROFILE: the next falls due 5,000 ms later, and nothing else differs but the transmit queue (R8). -/
theorem queueProfile_frame (s : State) : s.queueProfile = { s with
    draws := s.queueProfile.draws,
    rlc := { s.rlc with queue := s.queueProfile.rlc.queue, access := s.queueProfile.rlc.access,
                        attempts := s.queueProfile.rlc.attempts, wire := s.queueProfile.rlc.wire,
                        txDropped := s.queueProfile.rlc.txDropped, profileDue := some (s.now + 5000) } } := by
  unfold State.queueProfile
  rw [offer_frame]

theorem queueProfile_mem (s : State)
    (h : s.rlc.queue.length < 16 ∨ (isRefilled .profile = true ∧ .profile ∈ waitingFrames s.rlc)) :
    .profile ∈ s.queueProfile.rlc.queue := offer_mem _ _ h

theorem queueProfile_offered (s : State) : Offered s [.profile] s.queueProfile := by
  refine .of_start ?_ (offer_offered _ _)
  rfl

/-- The BEACON goes out where it finds room or one waits already (R1, R7). -/
theorem queueBeacon_mem (s : State)
    (h : s.rlc.queue.length < 16 ∨ (isRefilled .beacon = true ∧ .beacon ∈ waitingFrames s.rlc)) :
    .beacon ∈ s.queueBeacon.rlc.queue := by
  have waits : waitingFrames s.startInterval.rlc = waitingFrames s.rlc := by
    simp [waitingFrames]
  exact (queueBeacon_offered s).grows.subset (offer_mem _ _ (by simpa [waits] using h))

/-- With an empty queue the BEACON and all repeats join (R12, R13; log entry 34). -/
theorem queueBeacon_queue_of_empty (s : State) (h : s.rlc.queue = []) (hn : s.rlc.notices.length ≤ 8) :
    s.queueBeacon.rlc.queue = .beacon :: repeats s := by
  have hw : waitingFrames s.rlc = [] := by
    unfold waitingFrames
    split <;> simp [h]
  have first : (s.startInterval.offer .beacon).rlc.queue = [.beacon] := by
    have waits : waitingFrames s.startInterval.rlc = waitingFrames s.rlc := by
      simp [waitingFrames]
    rw [(offer_joins _ _ (by simp [waits, hw]) (by simp [h])).1]
    simp [h]
  have := repeats_length s
  rw [(queueBeacon_offered s).joins (fun i hi => repeats_fixed hi) (by simp [first]; omega), first]
  rfl

theorem sendsBeacons_iff (st : NodeState) : sendsBeacons st = true ↔
    st = .running ∨ st = .resuming ∨ st = .parked ∨ st = .fault := by
  cases st <;> simp [sendsBeacons]

theorem sendsWelcome_iff (st : NodeState) : sendsWelcome st = true ↔ st = .running ∨ st = .parked := by
  simp [sendsWelcome]

/-! ## The timers -/

section
variable (s : State) (t : Nat)

theorem execBeaconTimerExpiry_of (hd : s.rlc.beaconDue = some t) (hs : sendsBeacons s.rlc.nodeState = true) :
    exec .beaconTimerExpiry s = .next (s.reach t).queueBeacon := by
  have sent : execBeaconTimerExpiry s = .next (s.reach t).queueBeacon := by
    simp only [execBeaconTimerExpiry, hd, if_pos hs]
  exact sent

theorem execProfileTimerExpiry_of (hd : s.rlc.profileDue = some t) (hs : sendsBeacons s.rlc.nodeState = true) :
    exec .profileTimerExpiry s = .next (s.reach t).queueProfile := by
  have sent : execProfileTimerExpiry s = .next (s.reach t).queueProfile := by
    simp only [execProfileTimerExpiry, hd, if_pos hs]
  exact sent

/-- The PROFILE delay that ends, taken from the list. -/
def dropProfileDelay (s : State) (t : Nat) : State :=
  State.reach { s with rlc.profileDelays := s.rlc.profileDelays.erase t } t

theorem execProfileDelayExpiry_of (h : earliest s.rlc.profileDelays = some t) : exec .profileDelayExpiry s =
    .next (if sendsBeacons s.rlc.nodeState then (dropProfileDelay s t).queueProfile else dropProfileDelay s t) := by
  have sent : execProfileDelayExpiry s = .next (if sendsBeacons s.rlc.nodeState then (dropProfileDelay s t).queueProfile
      else dropProfileDelay s t) := by
    simp only [execProfileDelayExpiry, h]
    rfl
  exact sent

/-- The WELCOME delay that ends, taken from the list. -/
def dropWelcomeDelay (s : State) (w : WelcomeDelay) (rest : List WelcomeDelay) : State :=
  State.reach { s with rlc.welcomeDelays := rest } w.due

theorem execWelcomeDelayExpiry_of (w : WelcomeDelay) (pre post : List WelcomeDelay)
    (h : s.rlc.welcomeDelays = pre ++ w :: post) (hpre : ∀ d ∈ pre, w.due < d.due) (hpost : ∀ d ∈ post, w.due ≤ d.due) :
    exec .welcomeDelayExpiry s = .next (if sendsWelcome s.rlc.nodeState then
        (dropWelcomeDelay s w (pre ++ post)).offer (.fixed (.welcome w.pattern w.joiner))
      else dropWelcomeDelay s w (pre ++ post)) := by
  have first : earliest (s.rlc.welcomeDelays.map (·.due)) = some w.due := by
    refine earliest_eq_some (by simp [h]) fun d hd => ?_
    simp only [h, List.map_append, List.map_cons, List.mem_append, List.mem_cons, List.mem_map] at hd
    rcases hd with ⟨e, he, rfl⟩ | rfl | ⟨e, he, rfl⟩
    · exact (hpre e he).le
    · exact le_rfl
    · exact hpost e he
  have found : (s.rlc.welcomeDelays.find? fun d => d.due == w.due) = some w := by
    have none_before : (pre.find? fun d => d.due == w.due) = none := by
      rw [List.find?_eq_none]
      intro d hd
      simpa using (hpre d hd).ne'
    rw [h, List.find?_append, none_before, Option.none_or, List.find?_cons_of_pos (by simp)]
  have erased : s.rlc.welcomeDelays.erase w = pre ++ post := by
    have not_before : w ∉ pre := fun hw => (hpre w hw).false
    rw [h, List.erase_append_right _ not_before, List.erase_cons_head]
  have sent : execWelcomeDelayExpiry s = .next (if sendsWelcome s.rlc.nodeState then
        (dropWelcomeDelay s w (pre ++ post)).offer (.fixed (.welcome w.pattern w.joiner))
      else dropWelcomeDelay s w (pre ++ post)) := by
    simp only [execWelcomeDelayExpiry, first, found, erased]
    rfl
  exact sent

theorem execJoinRepeatExpiry_of (hd : s.rlc.joinDue = some t) (hn : s.rlc.nodeState = .joining) :
    exec .joinRepeatExpiry s = .next (repeatJoin (s.reach t)) := by
  have sent : execJoinRepeatExpiry s = .next (repeatJoin (s.reach t)) := by
    simp only [execJoinRepeatExpiry, hd, if_pos hn]
  exact sent

end

/-- Settles O31: each timer's command, by what it queues and by its frame. -/
theorem lineSchedulesQueueTheirFrames : Obligations.LineSchedulesQueueTheirFrames := by
  refine ⟨fun s t hd hs => ?_, fun s t hd hs => ?_, fun s t ht hm => ?_, fun s w pre post hw hpre hpost => ?_,
    fun s t p hn hd hp => ?_⟩
  · refine ⟨_, execBeaconTimerExpiry_of s t hd ((sendsBeacons_iff _).mpr hs), queueBeacon_lined (s.reach t), ?_,
      queueBeacon_notices (s.reach t), fun bay h1 h4 => ?_, queueBeacon_mem (s.reach t),
      queueBeacon_queue_of_empty (s.reach t)⟩
    · obtain ⟨d, he, short, long⟩ := startInterval_due (s.reach t)
      have now : (s.reach t).queueBeacon.now = (s.reach t).now := (queueBeacon_lined (s.reach t)).now
      rw [now]
      refine ⟨d, (queueBeacon_beaconDue _).trans he, short, fun h => long ?_ ?_⟩ <;>
        rcases h with h | h <;> simp [h]
    · rw [queueBeacon_truckWin _ h1 h4, reach_rlc]
      refine ⟨fun h => by rw [h]; rfl, fun w h => by rw [h]; rfl⟩
  · exact ⟨_, execProfileTimerExpiry_of s t hd ((sendsBeacons_iff _).mpr hs), queueProfile_frame (s.reach t),
      queueProfile_mem (s.reach t)⟩
  · refine ⟨_, execProfileDelayExpiry_of s t (earliest_eq_some ht hm), ?_⟩
    by_cases hs : sendsBeacons s.rlc.nodeState = true
    · rw [if_pos hs]
      have frame := queueProfile_frame (dropProfileDelay s t)
      exact ⟨by rw [frame]; rfl, fun _ => ⟨by rw [frame]; rfl, queueProfile_mem (dropProfileDelay s t)⟩,
        fun h => absurd ((sendsBeacons_iff _).mp hs) h⟩
    · rw [if_neg hs]
      exact ⟨rfl, fun h => absurd ((sendsBeacons_iff _).mpr h) hs, fun _ => ⟨rfl, rfl⟩⟩
  · refine ⟨_, execWelcomeDelayExpiry_of s w pre post hw hpre hpost, ?_⟩
    by_cases hs : sendsWelcome s.rlc.nodeState = true
    · rw [if_pos hs]
      exact ⟨offer_frame _ _, fun _ hl => (offer_joins (dropWelcomeDelay s w (pre ++ post)) _ (by simp [isRefilled]) hl).1,
        fun h1 h2 => absurd ((sendsWelcome_iff _).mp hs) (by simp [h1, h2])⟩
    · rw [if_neg hs]
      exact ⟨rfl, fun h => absurd ((sendsWelcome_iff _).mpr h) hs, fun _ _ => rfl⟩
  · refine ⟨_, execJoinRepeatExpiry_of s t hd hn, offer_frame _ _, fun hl => ?_⟩
    have joins := (offer_joins { s.reach t with rlc.joinDue := some ((s.reach t).now + 200) }
      (.fixed (joinBody (s.reach t))) (by simp [isRefilled]) hl).1
    have body : joinBody (s.reach t) = .join p s.sample.x := by
      simp only [joinBody, reach_rlc, hp]
      rfl
    rw [body] at joins
    exact (congrArg (fun b => (State.offer { s.reach t with rlc.joinDue := some ((s.reach t).now + 200) } (.fixed b)).rlc.queue)
      body).trans joins

end Sys2Proof.Machine
end

section
/-! The entries to the node states: the frame of each, what they queue, and the timers that lead to RUNNING. -/

namespace Sys2Proof.Machine

section
variable {s t u : State}

/-! ## Steps behind a frame -/

theorem HandOnFrame.moves (h : HandOnFrame s t) (k : Moves false t u) : HandOnFrame s u := h.trans k.frame

theorem HandOnFrame.now (h : HandOnFrame s t) : t.now = s.now := by
  obtain ⟨_, h, _⟩ := h
  exact h

theorem HandOnFrame.ptb (h : HandOnFrame s t) : t.ptb = s.ptb := by
  obtain ⟨_, _, h, _⟩ := h
  exact h

theorem HandOnFrame.smu (h : HandOnFrame s t) : t.smu = s.smu := by
  obtain ⟨_, _, _, h, _⟩ := h
  exact h

/-- The fields of the RLC that hand-ons leave as they were. -/
theorem HandOnFrame.rlc (h : HandOnFrame s t) :
    t.rlc = { s.rlc with queue := t.rlc.queue, access := t.rlc.access, attempts := t.rlc.attempts,
                         wire := t.rlc.wire, txDropped := t.rlc.txDropped, truckWin := t.rlc.truckWin } := by
  obtain ⟨_, _, _, _, _, _, h, _⟩ := h
  exact h

/-- A queued BEACON behind a frame. -/
theorem HandOnFrame.lined (h : HandOnFrame s t) (k : Lined t u) :
    HandOnFrame { s with rlc := { s.rlc with beaconDue := u.rlc.beaconDue, notices := u.rlc.notices } } u :=
  (h.with_rlc (fun r => { r with beaconDue := u.rlc.beaconDue, notices := u.rlc.notices })
    fun _ _ _ _ _ _ _ => rfl).trans k.frame

/-- A queued PROFILE behind a frame. -/
theorem HandOnFrame.queueProfile (h : HandOnFrame s t) :
    HandOnFrame { s with rlc := { s.rlc with profileDue := some (s.now + 5000) } } t.queueProfile := by
  have due := h.with_rlc (fun r => { r with profileDue := some (t.now + 5000) }) fun _ _ _ _ _ _ _ => rfl
  have same : some (s.now + 5000) = some (t.now + 5000) := by rw [h.now]
  rw [same]
  exact due.moves ((Moves.refl _).offer .profile)

theorem setNode_moves (s : State) (st : NodeState) (cause : FaultCause) :
    Moves false { s with rlc.nodeState := st } (setNode s st cause) := ((Moves.refl _).emit _).compute

/-- A node state entered behind a frame. -/
theorem HandOnFrame.setNode (h : HandOnFrame s t) (st : NodeState) (cause : FaultCause) :
    HandOnFrame { s with rlc := { s.rlc with nodeState := st } } (setNode t st cause) :=
  (h.with_rlc (fun r => { r with nodeState := st }) fun _ _ _ _ _ _ _ => rfl).moves (setNode_moves t st cause)

theorem clearQueue_frame (s : State) : HandOnFrame s s.clearQueue :=
  ⟨rfl, rfl, rfl, rfl, rfl, rfl, rfl, rfl, .inl rfl, rfl, rfl, rfl⟩

theorem beginAttempt_keeps (s : State) : HandOnFrame s s.beginAttempt := by
  rw [beginAttempt_frame]
  exact ⟨rfl, rfl, rfl, rfl, rfl, rfl, rfl, rfl, .inl rfl, rfl, rfl, rfl⟩

theorem keepBeacon_frame (s : State) : HandOnFrame s s.keepBeacon := by
  unfold State.keepBeacon
  dsimp only
  split
  · exact ⟨rfl, rfl, rfl, rfl, rfl, rfl, rfl, rfl, .inl rfl, rfl, rfl, rfl⟩
  · refine .trans ?_ (beginAttempt_keeps _)
    exact ⟨rfl, rfl, rfl, rfl, rfl, rfl, rfl, rfl, .inl rfl, rfl, rfl, rfl⟩

/-! ## The transmit queue behind moves -/

theorem prefix_offer (h : t.rlc.queue = s.rlc.queue) (i : TxItem) : s.rlc.queue <+: (t.offer i).rlc.queue :=
  h ▸ (offer_offered t i).grows

theorem Move.queue {b : Bool} (m : Move b s t) : s.rlc.queue <+: t.rlc.queue := by
  cases m with
  | offer _ i => exact (offer_offered s i).grows
  | notice =>
    refine prefix_offer ?_ _
    rfl
  | changeWindow =>
    refine prefix_offer ?_ _
    rfl
  | compute => simp
  | _ => exact List.prefix_rfl

theorem Moves.queue {b : Bool} (h : Moves b s t) : s.rlc.queue <+: t.rlc.queue := by
  induction h with
  | refl => exact List.prefix_rfl
  | tail _ m ih => exact ih.trans m.queue

/-- Serving the hand-ons removes no frame that waits. -/
theorem finish_queue (s : State) : s.rlc.queue <+: (State.finish s).rlc.queue := (finish_moves s).queue

@[simp] theorem setNode_queue (s : State) (st : NodeState) (c : FaultCause) :
    (setNode s st c).rlc.queue = s.rlc.queue := by
  simp [setNode]

/-! ## Node states -/

theorem enterConfig_frame (s : State) :
    HandOnFrame { s with rlc := { s.rlc with nodeState := .config } } (enterConfig s) :=
  (clearQueue_frame s).setNode .config .none

/-- The blocks' part of an entry to FAULT: the conflicts end, the active order fails, the truck requests end (R93, R161,
R197). -/
def failBlocks (s : State) : State := withdrawTruckReqs (endOrder (endConflicts s) (.failed .nodeFault)) .nodeFault

theorem failBlocks_moves (s : State) : Moves false s (failBlocks s) :=
  withdrawTruckReqs_moves (endOrder_moves (endConflicts_moves (.refl s)) _) _

/-- The RLC as it enters FAULT, before its frames are queued (R24). -/
def faultRlc (r : Rlc) (cause : FaultCause) : Rlc :=
  { r with nodeState := .fault, lastFault := cause, joinDue := none, joinEnd := none, resumeEnd := none }

/-- FAULT entered, with only the frames of R24 still to be queued. -/
def faulted (s : State) (cause : FaultCause) : State :=
  State.keepBeacon (failBlocks (setNode { stopTimers s with rlc.lastFault := cause } .fault cause))

theorem enterFault_eq (s : State) (cause : FaultCause) :
    enterFault s cause = faultFrames (faulted s cause) cause (s.rlc.nodeState == .joining) := rfl

theorem faulted_frame (s : State) (cause : FaultCause) :
    HandOnFrame { s with rlc := faultRlc s.rlc cause } (faulted s cause) :=
  ((setNode_moves _ _ _).trans (failBlocks_moves _)).frame.trans (keepBeacon_frame _)

/-- Without a crane number FAULT is entered with the schedules stopped (R24). -/
theorem enterFault_noNumber_frame (s : State) :
    HandOnFrame { s with rlc := { faultRlc s.rlc .noNumber with beaconDue := none, profileDue := none } }
      (enterFault s .noNumber) := by
  rw [enterFault_eq, faultFrames, if_neg (by decide)]
  exact (faulted_frame s .noNumber).with_rlc (fun r => { r with beaconDue := none, profileDue := none })
    fun _ _ _ _ _ _ _ => rfl

end

/-! ## RESET left -/

/-- A strap value of 1 to 7, or 0 with the eighth-crane pin tied, gives a number (R16). -/
theorem strapNumber_of {t : Straps} {k : Nat}
    (h : 1 ≤ k ∧ t.value.val = k ∨ t.value.val = 0 ∧ t.eighthTied = true ∧ k = 8) : strapNumber t = some k := by
  rcases h with ⟨hk, hv⟩ | ⟨hv, he, rfl⟩
  · rw [strapNumber, if_neg (by omega), hv]
  · rw [strapNumber, if_pos hv, if_pos he]

theorem strapNumber_eq_none {t : Straps} (hv : t.value.val = 0) (he : t.eighthTied = false) : strapNumber t = none := by
  rw [strapNumber, if_pos hv, he]
  rfl

/-- Settles O20: the reset values are those of the reset state, and RESET is left through the entries to CONFIG and FAULT;
that no other command reads the straps is what every command obeys. -/
theorem strapsGiveTheCraneNumber : Obligations.StrapsGiveTheCraneNumber := by
  refine ⟨fun _ => rfl, fun _ => rfl, fun s t k hr hk => ⟨_, rfl, ?_⟩, fun s t hr hv he => ⟨_, rfl, ?_⟩,
    fun s u h h1 h2 h3 h4 => ?_⟩
  · refine .trans ?_ (finish_frame _)
    have number := strapNumber_of hk
    rw [if_pos hr]
    simp only [leaveReset, readStraps, number]
    exact enterConfig_frame _
  · refine .trans ?_ (finish_frame _)
    have number := strapNumber_eq_none hv he
    rw [if_pos hr]
    simp only [leaveReset, readStraps, number]
    exact enterFault_noNumber_frame _
  · rcases step_obeys h with ⟨calm, _⟩ | ⟨c, rest, hp, obeys⟩
    · exact ⟨calm.straps, calm.crane⟩
    · rw [hp] at h1 h2 h3 h4
      exact obeys.pins (fun t e => h1 t (congrArg some e)) (fun t e => h2 t (congrArg some e))
        (fun e => h3 (congrArg some e)) fun e => h4 (congrArg some e)

end Sys2Proof.Machine
end

section
/-! The timers of the node states, of silence and of waiting. -/

namespace Sys2Proof.Machine

/-! ## RUNNING entered -/

/-- The state at the end of the joining or resuming timer, before RUNNING is entered. -/
def runningRlc (r : Rlc) : Rlc :=
  { r with nodeState := .running, joinDue := none, joinEnd := none, resumeEnd := none }

/-- RUNNING entered, and nothing queued yet. -/
def nowRunning (s : State) : State := setNode (stopTimers s) .running .none

section
variable (s : State)

theorem nowRunning_moves : Moves false { s with rlc := runningRlc s.rlc } (nowRunning s) :=
  setNode_moves (stopTimers s) .running .none

@[simp] theorem nowRunning_queue : (nowRunning s).rlc.queue = s.rlc.queue := by simp [nowRunning, stopTimers]

@[simp] theorem nowRunning_nodeState : (nowRunning s).rlc.nodeState = .running := (nowRunning_moves s).nodeState

theorem nowRunning_now : (nowRunning s).now = s.now := (nowRunning_moves s).frame.now

theorem nowRunning_notices : (nowRunning s).rlc.notices = s.rlc.notices := by
  rw [(nowRunning_moves s).frame.rlc]
  rfl

/-- RUNNING from JOINING leaves all but the schedules of the line as the hand-ons leave it. -/
theorem enterRunning_frame :
    HandOnFrame { s with rlc := { runningRlc s.rlc with
        profileDue := some (s.now + 5000), beaconDue := (nowRunning s).queueBeacon.rlc.beaconDue,
        notices := (nowRunning s).queueBeacon.rlc.notices } } (enterRunning s) :=
  (((nowRunning_moves s).frame.lined (queueBeacon_lined _)).queueProfile).moves ((Moves.refl _).hand _)

theorem resumeRunning_frame :
    HandOnFrame { s with rlc := { runningRlc s.rlc with profileDue := some (s.now + 5000) } } (resumeRunning s) :=
  ((nowRunning_moves s).frame.queueProfile).moves ((Moves.refl _).hand _)

/-- Behind the BEACON and the repeats the PROFILE still finds room (R8). -/
theorem enterRunning_profile (h2 : s.rlc.queue.length ≤ 2) (h8 : s.rlc.notices.length ≤ 8) :
    .profile ∈ (enterRunning s).rlc.queue := by
  have first := (offer_offered (nowRunning s).startInterval .beacon).length
  have rest := (queueBeacon_offered (nowRunning s)).length
  have few := repeats_length (nowRunning s)
  rw [nowRunning_notices] at few
  simp only [startInterval_queue, nowRunning_queue, List.length_singleton] at first
  exact queueProfile_mem (nowRunning s).queueBeacon (.inl (by omega))

end

/-! ## Waiting -/

theorem mag_eq_abs (v : Int) : mag v = |v| := by
  rw [mag, abs_eq_max_neg]
  split <;> omega

theorem travelCause_stale {s : State} {a : Active} (h : s.sampleStale = true) : travelCause s a = .staleSample := by
  rw [travelCause, if_pos h]

theorem hoistCause_stale {s : State} {a : Active} (h : s.sampleStale = true) : hoistCause s a = .staleSample := by
  rw [hoistCause, if_pos h]

theorem travelCause_of_gantry {s : State} {a : Active} (h : s.sampleStale = false) (hx : 50 < |s.sample.x - a.targetX|) :
    travelCause s a = permitCause
      (if s.sample.x < a.targetX then s.epu.record.permits.gantryPlus else s.epu.record.permits.gantryMinus) := by
  rw [travelCause, if_neg (by simp [h])]
  exact if_pos (by rwa [mag_eq_abs])

theorem travelCause_of_trolley {s : State} {a : Active} (h : s.sampleStale = false)
    (hx : |s.sample.x - a.targetX| ≤ 50) : travelCause s a = permitCause
      (if s.sample.y < a.targetY then s.epu.record.permits.trolleyPlus else s.epu.record.permits.trolleyMinus) := by
  rw [travelCause, if_neg (by simp [h])]
  exact if_neg (by rw [mag_eq_abs]; omega)

theorem hoistCause_of {s : State} {a : Active} (h : s.sampleStale = false) : hoistCause s a = permitCause
    (if s.sample.z < a.targetZ then s.epu.record.permits.hoistUp else s.epu.record.permits.hoistDown) := by
  rw [hoistCause, if_neg (by simp [h])]

/-- What the wait of an order is reported with, by its phase (R196). -/
theorem waitCause_cases (s : State) (a : Active) :
    (a.phase = .opening → waitCause s a = .grip) ∧ (a.phase = .decide → waitCause s a = .none)
      ∧ (a.phase = .claimSource ∨ a.phase = .claimDest → waitCause s a = claimCause s a)
      ∧ (a.phase = .toSource ∨ a.phase = .toDest → waitCause s a = travelCause s a)
      ∧ (a.phase = .pickLower ∨ a.phase = .lift ∨ a.phase = .placeLower ∨ a.phase = .clear →
          waitCause s a = hoistCause s a) := by
  cases h : a.phase <;> simp [waitCause, h]

theorem execOrderWaiting_of {s : State} {a : Active} (h : s.moc.active = some a) (hp : a.phase ≠ .holdLoad)
    (hw : a.waitTold = false) : exec .orderWaiting s = .next (tellWaiting (s.reach (a.phaseAt + 10000)) a) := by
  have told : execOrderWaiting s = .next (tellWaiting (s.reach (a.phaseAt + 10000)) a) := by
    simp only [execOrderWaiting, h, if_pos (And.intro hp hw)]
  exact told

theorem tellWaiting_eq {s : State} {a : Active} (h : s.moc.active = some a) : tellWaiting s a = State.emit
    { s with moc := { s.moc with active := some { a with waitTold := true } } }
    (.orderWaiting a.ord.id a.phase (waitCause s a)) := by
  simp only [tellWaiting, setActive, h, Option.map_some]

/-! ## Silence -/

theorem staleLimit_eq (p : Peer) : staleLimit p =
    if p.nodeState == some .parked || p.nodeState == some .fault then 3500 else 350 := by
  rcases h : p.nodeState with _ | st
  · simp [staleLimit, h]
  · cases st <;> simp [staleLimit, h]

theorem lostLimit_eq (p : Peer) : lostLimit p =
    if p.nodeState == some .parked || p.nodeState == some .fault then 10000 else 1000 := by
  rcases h : p.nodeState with _ | st
  · simp [lostLimit, h]
  · cases st <;> simp [lostLimit, h]

/-- A record put into the table and what it hands on, behind a frame: only the table differs. -/
theorem HandOnFrame.put {s t u : State} {p : Peer} (h : HandOnFrame s t) (k : Moves false (putPeer t p) u) :
    HandOnFrame { s with ptb := u.ptb } u := by
  rw [k.ptb]
  exact (h.with_ptb _).moves k

/-- A record put into the table is found there, and every other one is found as before. -/
theorem putPeer_lookup {s t u : State} {p : Peer} (ht : t.ptb = s.ptb) (k : Moves false (putPeer t p) u) :
    peerAt u.ptb p.n = some p ∧ ∀ m, m ≠ p.n → peerAt u.ptb m = peerAt s.ptb m := by
  rw [k.ptb]
  refine ⟨?_, fun m hm => ?_⟩
  · rw [peerAt_putPeer, if_pos rfl]
  · rw [peerAt_putPeer, if_neg hm, ht]

theorem changeLiveness_moves (s : State) (p : Peer) (l : Liveness) (e : Event) :
    Moves false (putPeer s { p with liveness := l }) (changeLiveness s p l e) :=
  recordChanged_moves ((Moves.refl _).emit e)

/-- A liveness change as it ends a command: the record's liveness and nothing else of the table (R38). -/
theorem finish_changeLiveness (s : State) {n : Nat} {p : Peer} (hp : peerAt s.ptb n = some p) (l : Liveness) (e : Event) :
    let u := State.finish (changeLiveness s p l e)
    HandOnFrame { s with ptb := u.ptb } u ∧ peerAt u.ptb n = some { p with liveness := l }
      ∧ ∀ m, m ≠ n → peerAt u.ptb m = peerAt s.ptb m := by
  have k := (changeLiveness_moves s p l e).trans (finish_moves _)
  obtain ⟨_, rfl⟩ := mem_of_peerAt hp
  exact ⟨(HandOnFrame.refl s).put k, putPeer_lookup rfl k⟩

/-! ## The commands -/

section
variable {s : State} {t n : Nat} {p : Peer}

theorem execJoinTimerExpiry_of (hn : s.rlc.nodeState = .joining) (ht : s.rlc.joinEnd = some t) :
    exec .joinTimerExpiry s = .next (State.finish (enterRunning (s.reach t))) := by
  have ended : execJoinTimerExpiry s = .next (State.finish (enterRunning (s.reach t))) := by
    simp only [execJoinTimerExpiry, ht, if_pos hn]
  exact ended

theorem execResumeTimerExpiry_of (hn : s.rlc.nodeState = .resuming) (ht : s.rlc.resumeEnd = some t) :
    exec .resumeTimerExpiry s = .next (State.finish (resumeRunning (s.reach t))) := by
  have ended : execResumeTimerExpiry s = .next (State.finish (resumeRunning (s.reach t))) := by
    simp only [execResumeTimerExpiry, ht, if_pos hn]
  exact ended

theorem execPeerStale_of (hn : s.rlc.nodeState ≠ .reset) (hp : peerAt s.ptb n = some p) (hl : p.liveness = .live) :
    exec (.peerStale n) s
      = .next (State.finish (changeLiveness (s.reach (p.heard + staleLimit p + 1)) p .stale (.peerStale n))) := by
  have told : execPeerStale n s
      = .next (State.finish (changeLiveness (s.reach (p.heard + staleLimit p + 1)) p .stale (.peerStale n))) := by
    simp only [execPeerStale, hp, if_pos (And.intro hn hl)]
  exact told

theorem execPeerLost_of (hn : s.rlc.nodeState ≠ .reset) (hp : peerAt s.ptb n = some p) (hl : p.liveness = .stale) :
    exec (.peerLost n) s
      = .next (State.finish (changeLiveness (s.reach (p.heard + lostLimit p + 1)) p .lost (.peerLost n))) := by
  have told : execPeerLost n s
      = .next (State.finish (changeLiveness (s.reach (p.heard + lostLimit p + 1)) p .lost (.peerLost n))) := by
    simp only [execPeerLost, hp, if_pos (And.intro hn hl)]
  exact told

theorem watchesTx_of {r : Rlc} (h : r.nodeState = .joining ∨ r.nodeState = .running ∨ r.nodeState = .resuming
    ∨ r.nodeState = .parked ∨ (r.nodeState = .fault ∧ r.lastFault = .duplicateNumber)) : watchesTx r = true := by
  rcases h with h | h | h | h | ⟨h, hf⟩
  all_goals rw [watchesTx, h]
  rw [hf]
  rfl

theorem execLineTxFail_of (h : watchesTx s.rlc = true) (hf : s.rlc.txFail = false) : exec .lineTxFail s = .next
    (State.emit { s with now := max s.now (s.rlc.txSince + 1000), rlc := { s.rlc with txFail := true } } .lineTxFail) := by
  change execLineTxFail s = _
  rw [execLineTxFail, if_pos (by rw [h, hf]; rfl)]
  rfl

/-- The wait of an order reported with the cause of its phase (R196). -/
theorem execOrderWaiting_told (a : Active) (h : s.moc.active = some a) (hp : a.phase ≠ .holdLoad)
    (hw : a.waitTold = false) :
    let r : State := { s with now := max s.now (a.phaseAt + 10000) }
    exec .orderWaiting s = .next (State.emit { r with moc := { s.moc with active := some { a with waitTold := true } } }
      (.orderWaiting a.ord.id a.phase (waitCause r a))) :=
  (execOrderWaiting_of h hp hw).trans (congrArg Host.Outcome.next (tellWaiting_eq (s := s.reach (a.phaseAt + 10000)) h))

end

/-- Settles O32: RUNNING through its two entries, the report of a wait by its phase, and silence through the record put
back with its new liveness. -/
theorem joinResumeWaitAndSilenceTimers : Obligations.JoinResumeWaitAndSilenceTimers := by
  refine ⟨⟨⟨fun s t hn ht => ?join, fun s t hn ht => ?resume⟩, fun s hf hn => execLineTxFail_of (watchesTx_of hn) hf,
    fun s hf => ?failed, fun s a ha hw => ?told, fun s a ha hp hw => ?waiting⟩, fun s n p hn hp => ⟨fun hl => ?stale,
    fun hl => ?lost⟩⟩
  case join =>
    have served := finish_frame (enterRunning (s.reach t))
    have frame := (enterRunning_frame (s.reach t)).trans served
    have queue := (finish_queue (enterRunning (s.reach t))).subset
    have beacon : (State.finish (enterRunning (s.reach t))).rlc.beaconDue
        = (nowRunning (s.reach t)).queueBeacon.rlc.beaconDue := by
      rw [frame.rlc]
    have notices : (State.finish (enterRunning (s.reach t))).rlc.notices
        = (nowRunning (s.reach t)).queueBeacon.rlc.notices := by
      rw [frame.rlc]
    obtain ⟨d, hd, short, _⟩ := startInterval_due (nowRunning (s.reach t))
    refine ⟨_, execJoinTimerExpiry_of hn ht, ?_, ⟨d, (beacon.trans (queueBeacon_beaconDue _)).trans hd, ?_⟩, fun hl => queue ?_, fun h2 h8 => queue ?_⟩
    · dsimp only
      rw [beacon, notices]
      exact frame
    · rw [frame.now]
      exact nowRunning_now (s.reach t) ▸ short (.inl (nowRunning_nodeState _))
    · exact (queueProfile_offered _).grows.subset (queueBeacon_mem (nowRunning (s.reach t)) (.inl (by simpa using hl)))
    · exact enterRunning_profile (s.reach t) h2 h8
  case resume =>
    have frame := (resumeRunning_frame (s.reach t)).trans (finish_frame _)
    have beacon : (State.finish (resumeRunning (s.reach t))).rlc.beaconDue = s.rlc.beaconDue := by
      rw [frame.rlc]
      rfl
    have notices : (State.finish (resumeRunning (s.reach t))).rlc.notices = s.rlc.notices := by
      rw [frame.rlc]
      rfl
    refine ⟨_, execResumeTimerExpiry_of hn ht, ?_, beacon, notices, fun hl => (finish_queue _).subset ?_⟩
    · dsimp only
      rw [beacon, notices]
      exact frame
    · exact queueProfile_mem (nowRunning (s.reach t)) (.inl (by simpa using hl))
  case failed =>
    change execLineTxFail s = _
    rw [execLineTxFail, if_neg (by simp [hf])]
  case told =>
    change execOrderWaiting s = _
    simp [execOrderWaiting, ha, hw]
  case waiting =>
    obtain ⟨opening, decide, claim, travel, hoist⟩ := waitCause_cases { s with now := max s.now (a.phaseAt + 10000) } a
    refine ⟨_, execOrderWaiting_told a ha hp hw, opening, decide, fun h hr => ?_, fun h hr k hk => ?_,
      fun h hs => ?_, fun h hs => ⟨fun hx => ?_, fun hx => ?_⟩, fun h hs => ?_⟩
    · rw [claim h, claimCause, if_pos hr]
    · rw [claim h, claimCause, if_neg (by simp [hr])]
      simp only [hk]
    · rcases h with h | h | h
      · exact (travel (.inl h)).trans (travelCause_stale hs)
      · exact (travel (.inr h)).trans (travelCause_stale hs)
      · exact (hoist h).trans (hoistCause_stale hs)
    · exact (travel h).trans (travelCause_of_gantry hs hx)
    · exact (travel h).trans (travelCause_of_trolley hs hx)
    · exact (hoist h).trans (hoistCause_of hs)
  case stale =>
    have ends := finish_changeLiveness (s.reach (p.heard + staleLimit p + 1)) hp .stale (.peerStale n)
    refine ⟨_, execPeerStale_of hn hp hl, ?_⟩
    rw [staleLimit_eq] at ends ⊢
    exact ends
  case lost =>
    have ends := finish_changeLiveness (s.reach (p.heard + lostLimit p + 1)) hp .lost (.peerLost n)
    refine ⟨_, execPeerLost_of hn hp hl, ?_⟩
    rw [lostLimit_eq] at ends ⊢
    exact ends

end Sys2Proof.Machine
end

section
/-! SUPPORT. The events that wait, behind a sequence of moves; and the frames that change one record of the peer table. -/

namespace Sys2Proof.Machine

/-! ## Waiting events -/

/-- An event waits in the output queue. -/
def Waits (c : Cpt) (e : Event) : Prop := ∃ r ∈ c.out, r.body = .event e

/-- The events that wait still wait, and EVENT_DROPPED is not taken back. -/
structure Logs (c d : Cpt) : Prop where
  events : ∀ e, Waits c e → Waits d e
  dropped : c.dropped ≤ 65535 → c.dropped ≤ d.dropped ∧ d.dropped ≤ 65535

section
variable {c d k : Cpt}

theorem Logs.refl (c : Cpt) : Logs c c := ⟨fun _ h => h, fun h => ⟨le_rfl, h⟩⟩

theorem Logs.trans (h : Logs c d) (g : Logs d k) : Logs c k where
  events e he := g.events e (h.events e he)
  dropped hc := by
    obtain ⟨h1, h2⟩ := h.dropped hc
    obtain ⟨g1, g2⟩ := g.dropped h2
    exact ⟨h1.trans g1, g2⟩

theorem Logs.of_append {l : List OutRecord} (ho : d.out = c.out ++ l) (hd : d.dropped = c.dropped) : Logs c d where
  events _ := fun ⟨r, hr, hb⟩ => ⟨r, ho ▸ List.mem_append_left l hr, hb⟩
  dropped h := ⟨hd.ge, hd ▸ h⟩

theorem dropEvent_logs (c : Cpt) : Logs c (dropEvent c) where
  events _ h := h
  dropped h := by
    simp only [dropEvent, satAdd]
    omega

theorem offerEvent_logs (c : Cpt) (n : Nat) (e : Event) : Logs c (offerEvent c n e) := by
  unfold offerEvent
  dsimp only
  split
  · split
    · exact .of_append rfl rfl
    · exact dropEvent_logs c
  · split
    · exact .of_append (List.append_assoc _ _ _) rfl
    · exact dropEvent_logs c

/-- An offered event waits, or is counted as dropped (R204). -/
theorem offerEvent_waits (c : Cpt) (n : Nat) (e : Event) :
    Waits (offerEvent c n e) e ∨ (offerEvent c n e).dropped = satAdd c.dropped 1 := by
  unfold offerEvent
  dsimp only
  split
  · split
    · exact .inl ⟨_, List.mem_append_right _ (List.mem_singleton_self _), rfl⟩
    · exact .inr rfl
  · split
    · exact .inl ⟨_, List.mem_append_right _ (List.mem_singleton_self _), rfl⟩
    · exact .inr rfl

/-- A PERMIT or TARGET takes the place of no event (R203). -/
theorem placeOut_logs {p : OutBody → Bool} (c : Cpt) (n : Nat) (b : OutBody) (hp : ∀ e, p (.event e) = false) :
    Logs c (placeOut p c n b) := by
  unfold placeOut
  split
  · refine ⟨fun e => fun ⟨r, hr, hb⟩ => ⟨r, List.mem_map.mpr ⟨r, hr, ?_⟩, hb⟩, fun h => ⟨le_rfl, h⟩⟩
    rw [if_neg (by simp [hb, hp])]
  · exact .of_append rfl rfl

theorem emitRecord_logs (s : State) : Logs s.cpt s.emitRecord.cpt := by
  unfold State.emitRecord
  split
  · exact .refl _
  · exact placeOut_logs _ _ _ fun _ => rfl

theorem compute_logs (s : State) : Logs s.cpt s.compute.cpt := by
  have clashes : ∀ (l : List Nat) (t : State),
      Logs t.cpt (l.foldl (fun t n => if s.epu.clash.contains n then t else t.emit (.positionClash n)) t).cpt := by
    intro l
    induction l with
    | nil => exact fun t => .refl _
    | cons n l ih =>
      intro t
      refine .trans ?_ (ih _)
      dsimp only
      split
      · exact .refl _
      · exact offerEvent_logs _ _ _
  unfold State.compute
  split
  · exact .refl _
  · refine .trans ?_ (emitRecord_logs _)
    dsimp only
    split
    · exact .refl _
    · exact clashes _ s

end

section
variable {s t u v : State}

theorem Move.logs {b : Bool} (m : Move b s t) : Logs s.cpt t.cpt := by
  cases m with
  | emit _ e => exact offerEvent_logs _ _ _
  | target _ o p x y z => exact placeOut_logs _ _ _ fun _ => rfl
  | compute => exact compute_logs s
  | offer => simpa using Logs.refl s.cpt
  | notice => simpa [State.issueNotice] using Logs.refl s.cpt
  | changeWindow => simpa [State.openChangeWindow] using Logs.refl s.cpt
  | _ => exact .refl s.cpt

theorem Moves.logs {b : Bool} (h : Moves b s t) : Logs s.cpt t.cpt := by
  induction h with
  | refl => exact .refl _
  | tail _ m ih => exact ih.trans m.logs

/-- An event raised on the way is among the waiting records, unless one was dropped. -/
theorem Reports.of_emit {e : Event} (h : Logs s.cpt v.cpt) (k : Logs (v.emit e).cpt t.cpt) : Reports s t e := by
  intro hs hd
  rcases offerEvent_waits v.cpt v.stamp e with hw | hw
  · exact k.events e hw
  · obtain ⟨h1, h2⟩ := h.dropped (by omega)
    have counted : (v.emit e).cpt.dropped = min 65535 (v.cpt.dropped + 1) := hw
    obtain ⟨k1, -⟩ := k.dropped (by omega)
    omega

theorem Reports.of_logs {e : Event} (h : Reports s v e) (k : Logs v.cpt t.cpt) (hs : Logs s.cpt v.cpt) :
    Reports s t e := by
  intro h1 hd
  obtain ⟨a1, a2⟩ := hs.dropped (by omega)
  obtain ⟨k1, _⟩ := k.dropped a2
  exact k.events e (h h1 (by omega))

/-! ## One record changed -/

/-- A record is put into the table behind some moves of the blocks, and further moves follow. -/
def Recorded (s : State) (q : Peer) (t : State) : Prop := ∃ v, Moves false s v ∧ Moves false (putPeer v q) t

theorem Recorded.moves {q : Peer} (h : Recorded s q t) (k : Moves false t u) : Recorded s q u := by
  obtain ⟨v, h1, h2⟩ := h
  exact ⟨v, h1, h2.trans k⟩

theorem Recorded.finish {q : Peer} (h : Recorded s q t) : Recorded s q (State.finish t) := h.moves (finish_moves t)

theorem Recorded.frame {q : Peer} (h : Recorded s q t) : HandOnFrame { s with ptb := t.ptb } t := by
  obtain ⟨v, h1, h2⟩ := h
  exact h1.frame.put h2

theorem Recorded.lookup {q : Peer} (h : Recorded s q t) :
    peerAt t.ptb q.n = some q ∧ ∀ m, m ≠ q.n → peerAt t.ptb m = peerAt s.ptb m := by
  obtain ⟨v, h1, h2⟩ := h
  exact putPeer_lookup h1.ptb h2

theorem Recorded.logs {q : Peer} (h : Recorded s q t) : Logs s.cpt t.cpt := by
  obtain ⟨v, h1, h2⟩ := h
  exact h1.logs.trans h2.logs

/-- A frame that passes the checks reaches its route (R5, R6). -/
theorem receive_routed {n serial : Nat} {b : FrameBody} (h : Routed s n serial b) (route : State → State) :
    receive s { sender := n, serial := serial, body := b } route = route s := by
  obtain ⟨hr, ho, hn⟩ := h
  simp [receive, heard, hr, ho, hn]

theorem knownPeer_of_ne {n serial : Nat} (h : ∀ p, peerAt s.ptb n = some p → p.serial ≠ serial) :
    knownPeer s n serial = none := by
  unfold knownPeer
  split
  · rfl
  · rw [if_neg (h _ ‹_›)]

/-- Serving the hand-ons of a state without any changes nothing. -/
theorem finish_of_work_nil (h : s.work = []) : State.finish s = s := by
  simp only [State.finish, runWork, h]

/-- A command that ends with the hand-ons of a state served stops in that state. -/
theorem Settles.of_exec {c : Instr} (h : exec c s = .next (State.finish v)) : Settles c s v :=
  ⟨h, finish_frame v, fun hw => by rw [h, finish_of_work_nil hw]⟩

/-! ## CLAIM, RELEASE and WELCOME -/

theorem copyFrame_recorded (h : Moves false s v) (t : Target) (p q : Peer) : Recorded s q (copyFrame v t p q) := by
  unfold copyFrame
  dsimp only
  split
  · exact ⟨v, h, entryChanged_moves (.refl _) t⟩
  · exact ⟨v, h, recordChanged_moves (.refl _)⟩

/-- The claims copy after a CLAIM: its entry set, or added while there is room (R40). -/
def claimedCopy (cs : List CopyEntry) (t : Target) (prio now : Nat) : List CopyEntry := (addEntry cs t prio now).getD cs

theorem takeClaim_recorded {n serial prio : Nat} {t : Target} {p : Peer} (hp : knownPeer s n serial = some p) :
    Recorded s { p.revived s.now with claims := claimedCopy p.claims t prio s.now } (takeClaim s n serial t prio) := by
  simp only [takeClaim, hp, claimedCopy, revived_claims]
  cases h : addEntry p.claims t prio s.now with
  | some cs => exact copyFrame_recorded (reportBack_moves (.refl s) p) t p _
  | none => exact copyFrame_recorded ((reportBack_moves (.refl s) p).emit (.claimCopyFull n)) t p _

theorem takeRelease_recorded {n serial : Nat} {t : Target} {p : Peer} (hp : knownPeer s n serial = some p) :
    Recorded s { p.revived s.now with claims := p.claims.filter fun e => e.target != t } (takeRelease s n serial t) := by
  simp only [takeRelease, hp, revived_claims]
  exact copyFrame_recorded (reportBack_moves (.refl s) p) t p _

theorem hearKnown_recorded {n serial : Nat} {p : Peer} (hp : knownPeer s n serial = some p) :
    Recorded s (p.revived s.now) (hearKnown s n serial) := by
  simp only [hearKnown, hp]
  split
  · exact ⟨_, reportBack_moves (.refl s) p, .refl _⟩
  · exact ⟨_, reportBack_moves (.refl s) p, recordChanged_moves (.refl _)⟩

theorem claimedCopy_set {cs : List CopyEntry} {t : Target} {prio now : Nat} (h : ∃ e ∈ cs, e.target = t) :
    claimedCopy cs t prio now
      = cs.map fun e => if e.target = t then { e with held := false, prio := prio, stated := now } else e := by
  rw [claimedCopy, addEntry, if_pos (by simpa using h)]
  simp

theorem claimedCopy_new {cs : List CopyEntry} {t : Target} {prio now : Nat} (h : ∀ e ∈ cs, e.target ≠ t) :
    (cs.length < 6 → claimedCopy cs t prio now = cs ++ [{ target := t, held := false, prio := prio, stated := now }])
      ∧ (6 ≤ cs.length → claimedCopy cs t prio now = cs) := by
  have absent : ¬ (cs.any fun e => e.target == t) = true := by simpa using h
  exact ⟨fun hl => by rw [claimedCopy, addEntry, if_neg absent, if_pos hl]; rfl,
    fun hl => by rw [claimedCopy, addEntry, if_neg absent, if_neg (by omega)]; rfl⟩

end

section
variable {s : State} {n serial : Nat}

theorem execRxClaim_of {t : Target} {prio : Nat} (h : Routed s n serial (.claim t prio)) :
    exec (.rxClaim n serial t prio) s = .next (State.finish (takeClaim s n serial t prio)) := by
  change execRxClaim n serial t prio s = _
  rw [execRxClaim, receive_routed h]

theorem execRxRelease_of {t : Target} (h : Routed s n serial (.release t)) :
    exec (.rxRelease n serial t) s = .next (State.finish (takeRelease s n serial t)) := by
  change execRxRelease n serial t s = _
  rw [execRxRelease, receive_routed h]

theorem execRxWelcome_of {pattern joiner : Nat} (h : Routed s n serial (.welcome pattern joiner)) :
    exec (.rxWelcome n serial pattern joiner) s
      = .next (State.finish (confirmJoin (hearKnown s n serial) pattern joiner)) := by
  change execRxWelcome n serial pattern joiner s = _
  rw [execRxWelcome, receive_routed h]

/-- What a frame that only restarts the silence timer leaves as it was (R38). -/
theorem hearKnown_frame : HandOnFrame { s with ptb := (hearKnown s n serial).ptb } (hearKnown s n serial) := by
  cases h : knownPeer s n serial with
  | some p => exact (hearKnown_recorded h).frame
  | none => simp only [hearKnown, h]; exact .refl s

/-- The node waits for this WELCOME: it is JOINING with this pattern and number (R18). -/
def Awaits (s : State) (pattern joiner : Nat) : Prop :=
  s.rlc.nodeState = .joining ∧ s.rlc.pattern = some pattern ∧ s.rlc.craneNo = some joiner

theorem confirmJoin_of {s : State} {pattern joiner : Nat} (h : Awaits s pattern joiner) :
    confirmJoin s pattern joiner = { s with rlc.joinConfirmed := true } := if_pos h

theorem confirmJoin_of_not {s : State} {pattern joiner : Nat} (h : ¬ Awaits s pattern joiner) :
    confirmJoin s pattern joiner = s := if_neg h

theorem hearKnown_awaits {pattern joiner : Nat} : Awaits (hearKnown s n serial) pattern joiner ↔ Awaits s pattern joiner := by
  unfold Awaits
  rw [(hearKnown_frame (s := s) (n := n) (serial := serial)).rlc]

/-- A WELCOME as it ends its command: only the peer table and the join check differ. -/
theorem finish_confirmJoin (s : State) (n serial pattern joiner : Nat) :
    let u := State.finish (confirmJoin (hearKnown s n serial) pattern joiner)
    HandOnFrame { s with ptb := u.ptb, rlc := { s.rlc with joinConfirmed := u.rlc.joinConfirmed } } u
      ∧ u.ptb = (hearKnown s n serial).ptb
      ∧ (Awaits s pattern joiner → u.rlc.joinConfirmed = true)
      ∧ (¬ Awaits s pattern joiner → u.rlc.joinConfirmed = s.rlc.joinConfirmed) := by
  have heard := hearKnown_frame (s := s) (n := n) (serial := serial)
  have confirmed (b : Bool) := heard.with_rlc (fun r => { r with joinConfirmed := b }) fun _ _ _ _ _ _ _ => rfl
  by_cases h : Awaits s pattern joiner
  · rw [confirmJoin_of (hearKnown_awaits.mpr h)]
    have all := (confirmed true).trans (finish_frame _)
    have ptb := all.ptb
    have join : (State.finish { hearKnown s n serial with rlc.joinConfirmed := true }).rlc.joinConfirmed = true := by
      rw [all.rlc]
    dsimp only
    rw [join, ptb]
    exact ⟨all, rfl, fun _ => rfl, fun h' => absurd h h'⟩
  · rw [confirmJoin_of_not (mt hearKnown_awaits.mp h)]
    have all := heard.trans (finish_frame _)
    have ptb := all.ptb
    have join : (State.finish (hearKnown s n serial)).rlc.joinConfirmed = s.rlc.joinConfirmed := by
      rw [all.rlc]
    dsimp only
    rw [join, ptb]
    exact ⟨all, rfl, fun h' => absurd h' h, fun _ => rfl⟩

end

/-- Settles O27: what a CLAIM and a RELEASE put into the sender's record, and what a WELCOME confirms. -/
theorem claimReleaseAndWelcomeReachTheRecord : Obligations.ClaimReleaseAndWelcomeReachTheRecord := by
  have unknown_settles : ∀ {c : Instr} {s v : State}, exec c s = .next (State.finish v) → v = s → Settles c s s :=
    fun h e => .of_exec (e ▸ h)
  refine ⟨fun s n serial prio t => ⟨fun h => ⟨fun p hp hs => ?_, fun hne => ?_⟩, fun h => ⟨fun p hp hs => ?_, fun hne => ?_⟩⟩,
    fun s n serial pattern joiner h => ?_⟩
  · have put := (takeClaim_recorded (prio := prio) (t := t) (knownPeer_eq_some.mpr ⟨hp, hs⟩)).finish
    obtain ⟨_, rfl⟩ := mem_of_peerAt hp
    obtain ⟨found, others⟩ := put.lookup
    exact ⟨_, _, execRxClaim_of h, found, others, put.frame, rfl, claimedCopy_set,
      fun hn => (claimedCopy_new hn).1, fun hn => (claimedCopy_new hn).2⟩
  · refine unknown_settles (execRxClaim_of h) ?_
    simp only [takeClaim, knownPeer_of_ne hne]
  · have put := (takeRelease_recorded (t := t) (knownPeer_eq_some.mpr ⟨hp, hs⟩)).finish
    obtain ⟨_, rfl⟩ := mem_of_peerAt hp
    obtain ⟨found, others⟩ := put.lookup
    exact ⟨_, execRxRelease_of h, found, others, put.frame⟩
  · refine unknown_settles (execRxRelease_of h) ?_
    simp only [takeRelease, knownPeer_of_ne hne]
  · obtain ⟨frame, ptb, confirms, keeps⟩ := finish_confirmJoin s n serial pattern joiner
    refine ⟨_, execRxWelcome_of h, frame, fun h1 h2 h3 => confirms ⟨h1, h2, h3⟩, keeps, fun p hp hs => ?_,
      fun m hm => ?_, fun hne => ?_⟩ <;> rw [ptb]
    · obtain ⟨_, rfl⟩ := mem_of_peerAt hp
      exact (hearKnown_recorded (knownPeer_eq_some.mpr ⟨hp, hs⟩)).lookup.1
    · cases hk : knownPeer s n serial with
      | none => simp only [hearKnown, hk]
      | some p =>
        obtain ⟨_, rfl⟩ := mem_of_peerAt (knownPeer_eq_some.mp hk).1
        exact (hearKnown_recorded hk).lookup.2 m hm
    · simp only [hearKnown, knownPeer_of_ne hne]

end Sys2Proof.Machine
end

section
/-! A JOIN: the record it leaves, and the answers it is given. -/

namespace Sys2Proof.Machine

/-! ## Records -/

theorem clamp_eq {lo hi v : Int} (h : lo ≤ hi) : clamp lo hi v = max lo (min hi v) := by
  unfold clamp
  split_ifs <;> omega

/-- The x that a position gives a record: clamped to the runway where there is an image (R37). -/
def placedX (img : Option Image) (x : Int) : Int :=
  match img with
  | none => x
  | some g => clamp 0 g.runway x

/-- A record at rest at a place (R31, R37). -/
theorem placed_at_rest (p : Peer) (img : Option Image) (now : Nat) (x : Int) :
    p.placed img now x 0 0 true = { p with
      x := placedX img x, vx := 0, age := 0, valid := true, arrival := now, outOfField := decide (placedX img x ≠ x) } := by
  have still : clamp (-4000) 4000 0 = 0 := by decide
  cases img with
  | none => simp [Peer.placed, placedX, still]
  | some g =>
    have mark : decide (clamp 0 g.runway x ≠ x ∨ (0 : Int) ≠ 0) = decide (clamp 0 g.runway x ≠ x) := by simp
    simp only [Peer.placed, placedX, still, mark]
    rfl

/-- The record that a JOIN makes, or resets, with the truck versions it keeps (R31 to R33). -/
def joinedRecord (img : Option Image) (now n serial pattern : Nat) (x : Int) (versions : PerBay Nat) : Peer :=
  { n := n, serial := serial, nodeState := some .joining, pattern := some pattern, valid := true, x := placedX img x,
    vx := 0, age := 0, arrival := now, loadClass := none, noticeSeq := none, profile := none, liveness := .live,
    heard := now, cleared := false, claims := [], versions := versions, outOfField := decide (placedX img x ≠ x) }

/-- The record that a repeated JOIN leaves (R32). -/
def rejoinedRecord (img : Option Image) (now : Nat) (x : Int) (p : Peer) : Peer :=
  { p with nodeState := some .joining, valid := true, x := placedX img x, vx := 0, age := 0, arrival := now,
           liveness := .live, heard := now, cleared := p.cleared && p.liveness != .lost,
           outOfField := decide (placedX img x ≠ x) }

section
variable {s : State} {n serial pattern : Nat} {x : Int} {p : Peer}

theorem takeJoin_repeated (hk : knownPeer s n serial = some p) (hp : p.pattern = some pattern) :
    Recorded s (rejoinedRecord s.cpt.image s.now x p) (takeJoin s n serial pattern x) := by
  have record : { (p.revived s.now).placed s.cpt.image s.now x 0 0 true with nodeState := some .joining }
      = rejoinedRecord s.cpt.image s.now x p := by
    rw [placed_at_rest]
    rfl
  simp only [takeJoin, hk, joinKnown, if_pos hp, record]
  exact ⟨_, reportField_moves (reportBack_moves (.refl s) _) _ _, recordChanged_moves (.refl _)⟩

/-- A record changed behind a report: the report is made. -/
theorem Recorded.of_emit {t : State} {e : Event} {q : Peer} (h : Recorded (s.emit e) q t) :
    Recorded s q t ∧ Reports s t e := by
  obtain ⟨v, h1, h2⟩ := h
  exact ⟨⟨v, ((Moves.refl s).emit e).trans h1, h2⟩, .of_emit (.refl _) (h1.logs.trans h2.logs)⟩

theorem takeJoin_restarted (hk : knownPeer s n serial = some p) (hp : p.pattern ≠ some pattern) :
    Recorded (s.emit (.peerRestarted n)) (joinedRecord s.cpt.image s.now n serial pattern x p.versions)
      (takeJoin s n serial pattern x) := by
  obtain ⟨hat, rfl⟩ := knownPeer_eq_some.mp hk
  obtain ⟨_, rfl⟩ := mem_of_peerAt hat
  simp only [takeJoin, hk, joinKnown, if_neg hp, placed_at_rest]
  exact ⟨_, reportField_moves (reportBack_moves (.refl _) p) _ _, recordChanged_moves (.refl _)⟩

theorem emit_image (s : State) (e : Event) : (s.emit e).cpt.image = s.cpt.image := by
  rw [emit_cpt, (offerEvent_keeps _ _ _).1]

theorem takeJoin_replaced (hat : peerAt s.ptb n = some p) (hs : p.serial ≠ serial) :
    Recorded (s.emit (.peerReplaced n serial)) (joinedRecord s.cpt.image s.now n serial pattern x p.versions)
      (takeJoin s n serial pattern x) := by
  have unknown : knownPeer s n serial = none := by simp only [knownPeer, hat, if_neg hs]
  simp only [takeJoin, unknown, startRecord, hat, placed_at_rest, emit_image]
  exact ⟨_, reportField_moves (.refl _) _ _, recordChanged_moves (.refl _)⟩

theorem takeJoin_new (hat : peerAt s.ptb n = none) (room : s.ptb.peers.length < 7) :
    Recorded (s.emit (.peerNew n serial)) (joinedRecord s.cpt.image s.now n serial pattern x (PerBay.all 0))
      (takeJoin s n serial pattern x) := by
  have unknown : knownPeer s n serial = none := by simp only [knownPeer, hat]
  simp only [takeJoin, unknown, startRecord, hat, if_neg (Nat.not_le.mpr room), placed_at_rest, emit_image]
  exact ⟨_, reportField_moves (.refl _) _ _, recordChanged_moves (.refl _)⟩

theorem takeJoin_full (hat : peerAt s.ptb n = none) (full : 7 ≤ s.ptb.peers.length) :
    takeJoin s n serial pattern x = tellFull s := by
  have unknown : knownPeer s n serial = none := by simp only [knownPeer, hat]
  simp only [takeJoin, unknown, startRecord, hat, if_pos full]

end

/-- The refusal of a full table is remembered, and reported the first time (R29). -/
theorem tellFull_spec (s : State) :
    (tellFull s).ptb = { s.ptb with fullTold := true } ∧ HandOnFrame { s with ptb := (tellFull s).ptb } (tellFull s)
      ∧ (s.ptb.fullTold = false → Reports s (tellFull s) .peerTableFull) := by
  unfold tellFull
  split_ifs with h
  · refine ⟨?_, .refl s, fun hf => absurd h (by simp [hf])⟩
    rw [← h]
  · exact ⟨rfl, ((Moves.refl _).emit _).frame, fun _ => .of_emit (s := s) (.refl _) (.refl _)⟩

/-! ## Answers -/

/-- The answers to a JOIN, between the RLC before and after it (R8, R10). -/
structure Answers (n pattern now : Nat) (r q : Rlc) : Prop where
  both : (n, pattern) ∉ r.welcomed → r.nodeState = .running ∨ r.nodeState = .parked →
    (∀ k, (n, k) ∈ q.welcomed ↔ k = pattern) ∧ (∀ w, w.1 ≠ n → (w ∈ q.welcomed ↔ w ∈ r.welcomed))
      ∧ (∃ d, now ≤ d ∧ d ≤ now + 50
          ∧ q.welcomeDelays = r.welcomeDelays ++ [{ due := d, pattern := pattern, joiner := n }])
      ∧ ∃ d, now ≤ d ∧ d ≤ now + 100 ∧ q.profileDelays = r.profileDelays ++ [d]
  profile : (n, pattern) ∉ r.welcomed → r.nodeState = .resuming →
    q.welcomed = r.welcomed ∧ q.welcomeDelays = r.welcomeDelays
      ∧ ∃ d, now ≤ d ∧ d ≤ now + 100 ∧ q.profileDelays = r.profileDelays ++ [d]
  nothing : (n, pattern) ∈ r.welcomed ∨ (r.nodeState ≠ .running ∧ r.nodeState ≠ .parked ∧ r.nodeState ≠ .resuming) →
    q.welcomed = r.welcomed ∧ q.welcomeDelays = r.welcomeDelays ∧ q.profileDelays = r.profileDelays

section
variable {s t : State} {n pattern now : Nat}

/-- The pattern last answered is the only one remembered of its number (R10). -/
theorem mem_delayWelcome (s : State) (n pattern : Nat) :
    (∀ k, (n, k) ∈ (delayWelcome s n pattern).rlc.welcomed ↔ k = pattern)
      ∧ ∀ w, w.1 ≠ n → (w ∈ (delayWelcome s n pattern).rlc.welcomed ↔ w ∈ s.rlc.welcomed) := by
  refine ⟨fun k => by simp [delayWelcome], fun w hw => ?_⟩
  have other : w ≠ (n, pattern) := fun e => hw (congrArg Prod.fst e)
  simp [delayWelcome, hw, other]

theorem answerJoin_told (h : (n, pattern) ∈ s.rlc.welcomed) : answerJoin s n pattern = s :=
  if_pos (by simpa [answered] using h)

theorem answerJoin_both (h : (n, pattern) ∉ s.rlc.welcomed) (hs : s.rlc.nodeState = .running ∨ s.rlc.nodeState = .parked) :
    answerJoin s n pattern = delayProfile (delayWelcome s n pattern) := by
  rw [answerJoin, if_neg (by simpa [answered] using h)]
  rcases hs with hs | hs <;> rw [hs]

theorem answerJoin_profile (h : (n, pattern) ∉ s.rlc.welcomed) (hs : s.rlc.nodeState = .resuming) :
    answerJoin s n pattern = delayProfile s := by
  rw [answerJoin, if_neg (by simpa [answered] using h), hs]

theorem answerJoin_silent (h1 : s.rlc.nodeState ≠ .running) (h2 : s.rlc.nodeState ≠ .parked)
    (h3 : s.rlc.nodeState ≠ .resuming) : answerJoin s n pattern = s := by
  unfold answerJoin
  split
  · rfl
  · cases hs : s.rlc.nodeState with
    | running => exact absurd hs h1
    | parked => exact absurd hs h2
    | resuming => exact absurd hs h3
    | reset | config | joining | fault => rfl

theorem answerJoin_answers (s : State) (n pattern : Nat) :
    Answers n pattern s.now s.rlc (answerJoin s n pattern).rlc where
  both h hs := by
    rw [answerJoin_both h hs]
    obtain ⟨own, others⟩ := mem_delayWelcome s n pattern
    exact ⟨own, others, ⟨s.now + s.drawn % 51, by omega, by omega, rfl⟩,
      s.now + (delayWelcome s n pattern).drawn % 101, by omega, by omega, rfl⟩
  profile h hs := by
    rw [answerJoin_profile h hs]
    exact ⟨rfl, rfl, s.now + s.drawn % 101, by omega, by omega, rfl⟩
  nothing h := by
    have same : answerJoin s n pattern = s := h.elim answerJoin_told fun ⟨h1, h2, h3⟩ => answerJoin_silent h1 h2 h3
    rw [same]
    exact ⟨rfl, rfl, rfl⟩

/-- The answers to a JOIN change nothing but the draws, the pattern remembered and the delays. -/
theorem answerJoin_eq (s : State) (n pattern : Nat) : answerJoin s n pattern =
    { s with
      draws := (answerJoin s n pattern).draws
      rlc := { s.rlc with welcomed := (answerJoin s n pattern).rlc.welcomed,
                          welcomeDelays := (answerJoin s n pattern).rlc.welcomeDelays,
                          profileDelays := (answerJoin s n pattern).rlc.profileDelays } } := by
  unfold answerJoin
  split
  · rfl
  · split <;> rfl

/-- A JOIN as it ends its command, once the PTB has taken it: the answers of the node, and the frame. -/
theorem finish_answerJoin (h : HandOnFrame { s with ptb := t.ptb } t) (n pattern : Nat) :
    let u := State.finish (answerJoin t n pattern)
    u.ptb = t.ptb ∧ Answers n pattern s.now s.rlc u.rlc ∧ Logs t.cpt u.cpt
      ∧ HandOnFrame { s with ptb := u.ptb, rlc := { s.rlc with
          welcomed := u.rlc.welcomed, welcomeDelays := u.rlc.welcomeDelays,
          profileDelays := u.rlc.profileDelays } } u := by
  have answers := answerJoin_answers t n pattern
  have eq := answerJoin_eq t n pattern
  have served := finish_frame (answerJoin t n pattern)
  generalize answerJoin t n pattern = v at answers eq served
  have told := h.with_rlc (fun r => { r with
    welcomed := v.rlc.welcomed, welcomeDelays := v.rlc.welcomeDelays, profileDelays := v.rlc.profileDelays })
    fun _ _ _ _ _ _ _ => rfl
  have frame : HandOnFrame { s with ptb := t.ptb, rlc := { s.rlc with
      welcomed := v.rlc.welcomed, welcomeDelays := v.rlc.welcomeDelays, profileDelays := v.rlc.profileDelays } } v := by
    rw [eq]
    exact told
  have ptb : (State.finish v).ptb = t.ptb := served.ptb.trans frame.ptb
  have rlc := served.rlc
  have logs : Logs t.cpt (State.finish v).cpt := by
    have same : v.cpt = t.cpt := by rw [eq]
    exact same ▸ (finish_moves v).logs
  refine ⟨ptb, ?_, logs, ?_⟩
  · rw [h.now, h.rlc] at answers
    rw [rlc]
    exact ⟨answers.both, answers.profile, answers.nothing⟩
  · dsimp only
    rw [ptb, rlc]
    exact frame.trans served

end

theorem execRxJoin_of {s : State} {n serial pattern : Nat} {x : Int} (h : Routed s n serial (.join pattern x)) :
    exec (.rxJoin n serial pattern x) s
      = .next (State.finish (answerJoin (takeJoin s n serial pattern x) n pattern)) := by
  change execRxJoin n serial pattern x s = _
  rw [execRxJoin, receive_routed h]

/-- Settles O24: the record by what the table holds of the number, the answers by the node state. -/
theorem joinMakesOrResetsARecord : Obligations.JoinMakesOrResetsARecord := by
  intro s n serial pattern x h field cx made st told profile rest
  have hcx : cx = placedX s.cpt.image x := by
    unfold cx placedX
    cases hi : s.cpt.image with
    | none => rfl
    | some g => exact (clamp_eq (field g hi)).symm
  have hmade (v : PerBay Nat) : made v = joinedRecord s.cpt.image s.now n serial pattern x v := by
    simp only [made, joinedRecord, hcx]
  have ends : ∀ q, Recorded s q (takeJoin s n serial pattern x) → q.n = n →
      let u := State.finish (answerJoin (takeJoin s n serial pattern x) n pattern)
      peerAt u.ptb n = some q ∧ rest u ∧ Logs (takeJoin s n serial pattern x).cpt u.cpt := by
    rintro q put rfl
    obtain ⟨ptb, answers, logs, frame⟩ := finish_answerJoin put.frame q.n pattern
    obtain ⟨found, others⟩ := put.lookup
    refine ⟨ptb ▸ found, ⟨fun m hm => ?_, answers.both, answers.profile, answers.nothing, frame⟩, logs⟩
    rw [ptb]
    exact others m hm
  have raised : ∀ e q, Recorded (s.emit e) q (takeJoin s n serial pattern x) → q.n = n →
      let u := State.finish (answerJoin (takeJoin s n serial pattern x) n pattern)
      peerAt u.ptb n = some q ∧ rest u ∧ Reports s u e := by
    intro e q put hq
    obtain ⟨found, others, logs⟩ := ends q put.of_emit.1 hq
    exact ⟨found, others, put.of_emit.2.of_logs logs put.of_emit.1.logs⟩
  refine ⟨fun hat room => ?_, fun hat full => ?_, fun p hat hs hp => ?_, fun p hat hne => ?_⟩
  · rw [hmade]
    exact ⟨_, execRxJoin_of h, raised _ _ (takeJoin_new hat room) rfl⟩
  · obtain ⟨full_ptb, full_frame, full_told⟩ := tellFull_spec s
    have taken := takeJoin_full (serial := serial) (pattern := pattern) (x := x) hat full
    obtain ⟨ptb, answers, logs, frame⟩ := finish_answerJoin full_frame n pattern
    rw [execRxJoin_of h, taken]
    refine ⟨_, rfl, ptb.trans full_ptb, ⟨fun m _ => ?_, answers.both, answers.profile, answers.nothing, frame⟩,
      fun hf => (full_told hf).of_logs logs ?_⟩
    · rw [ptb, full_ptb]
      rfl
    · unfold tellFull
      split
      · exact .refl _
      · exact offerEvent_logs _ _ _
  · obtain ⟨found, others, _⟩ := ends _ (takeJoin_repeated (knownPeer_eq_some.mpr ⟨hat, hs⟩) hp) (mem_of_peerAt hat).2
    rw [hcx]
    exact ⟨_, execRxJoin_of h, others, found⟩
  · rw [hmade]
    by_cases hs : p.serial = serial
    · obtain ⟨found, others, told⟩ := raised _ _
        (takeJoin_restarted (knownPeer_eq_some.mpr ⟨hat, hs⟩) (hne.resolve_left (not_not.mpr hs))) rfl
      exact ⟨_, execRxJoin_of h, found, others, fun h' => absurd hs h', fun _ => told⟩
    · obtain ⟨found, others, told⟩ := raised _ _ (takeJoin_replaced hat hs) rfl
      exact ⟨_, execRxJoin_of h, found, others, fun _ => told, fun h' => absurd h' hs⟩

end Sys2Proof.Machine
end

section
/-! Requests: what a command takes from the request buffer, and that each is answered once. -/

namespace Sys2Proof.Machine

/-! ## Taking a request -/

section
variable {s : State} {tag : ReqTag} {r : Request}

theorem AtHead.headRequest (h : AtHead s tag r) : headRequest s (reqKind r) = some (tag, r) := by
  obtain ⟨hn, hr, room⟩ := h
  exact headRequest_eq_some.mpr ⟨hr, rfl, hn, room⟩

/-- A request answered as it leaves the buffer (R200 to R202). -/
theorem answer_dropRequest (s : State) (tag : ReqTag) (r : Request) (st : Status) (why : Reason) (c : RespContent) :
    answer (dropRequest s) tag r st why c = afterAnswer s tag r st why c := by
  cases h : isRead (reqKind r) <;> simp only [answer, afterAnswer, h] <;> rfl

/-- A repeated request is answered again with the repeat mark (R202). -/
theorem takeRequest_repeated (h : AtHead s tag r) (hr : isRead (reqKind r) = false) {a : Answered}
    (ha : s.cpt.lastReq = some a) (hk : a.kind = reqKind r) (ht : a.tag = tag)
    (serve : State → ReqTag → Request → State) : takeRequest s (reqKind r) serve
      = (dropRequest s).queueResponse { a.response with repeated := true } := by
  have again : repeatOf (dropRequest s) tag r = some a.response := by
    rw [repeatOf, hr, dropRequest_cpt]
    simp only [ha, hk, ht, and_self, if_true, Bool.false_eq_true, if_false]
  simp only [takeRequest, h.headRequest, again]

/-- A request that repeats none is served where the node state accepts it, and else answered BAD_STATE (R201). -/
theorem takeRequest_takesNow (h : TakesNow s tag r) (serve : State → ReqTag → Request → State) :
    takeRequest s (reqKind r) serve = if acceptedIn (reqKind r) s.rlc.nodeState then serve (dropRequest s) tag r
      else afterAnswer s tag r .badState .none .none := by
  obtain ⟨head, fresh⟩ := h
  have new : repeatOf (dropRequest s) tag r = none := by
    unfold repeatOf
    split
    · rfl
    · rename_i hr
      rw [dropRequest_cpt]
      dsimp only
      split
      · rfl
      · exact if_neg (fresh.resolve_left hr _ ‹_›)
  simp only [takeRequest, head.headRequest, new, dropRequest_rlc, answer_dropRequest]

end

/-! ## The port as a request sees it -/

/-- What the answering of a request changes: the request buffer, the request remembered, and the waiting responses. -/
def portView (c : Cpt) : List BufFrame × Option Answered × List Response := (c.reqBuf, c.lastReq, responses c)

section
variable {s t u : State}

theorem HandOnFrame.port (h : HandOnFrame s t) : portView t.cpt = portView s.cpt := by
  obtain ⟨_, _, _, _, _, _, _, _, _, hc, hr, _⟩ := h
  unfold portView
  rw [hr, hc]

theorem Move.port {b : Bool} (m : Move b s t) : portView t.cpt = portView s.cpt := by
  cases m with
  | emit _ e => exact (Move.emit s e).frame.port
  | target _ o p x y z => exact (Move.target s o p x y z).frame.port
  | compute => exact (Move.compute s).frame.port
  | offer _ i => exact (Move.offer s i).frame.port
  | notice => simp [State.issueNotice]
  | changeWindow _ bay => exact (Move.changeWindow s bay).frame.port
  | _ => rfl

theorem Moves.port {b : Bool} (h : Moves b s t) : portView t.cpt = portView s.cpt :=
  h.same (fun s => portView s.cpt) fun _ _ m => m.port

@[simp] theorem setNode_port (s : State) (st : NodeState) (c : FaultCause) :
    portView (setNode s st c).cpt = portView s.cpt := (setNode_moves s st c).port

@[simp] theorem queueBeacon_cpt (s : State) : s.queueBeacon.cpt = s.cpt := by
  have h := queueBeacon_lined s
  unfold Lined at h
  rw [h]

@[simp] theorem queueProfile_cpt (s : State) : s.queueProfile.cpt = s.cpt := by rw [queueProfile_frame]

@[simp] theorem enterConfig_port (s : State) : portView (enterConfig s).cpt = portView s.cpt := setNode_port _ _ _

@[simp] theorem enterJoining_port (s : State) : portView (enterJoining s).cpt = portView s.cpt := by
  unfold enterJoining
  rw [offer_cpt, setNode_port]
  rfl

@[simp] theorem enterFault_port (s : State) (c : FaultCause) : portView (enterFault s c).cpt = portView s.cpt := by
  have failed : portView (faulted s c).cpt = portView s.cpt := (faulted_frame s c).port
  rw [enterFault_eq]
  unfold faultFrames
  dsimp only
  split
  · split
    · rw [queueProfile_cpt, queueBeacon_cpt, failed]
    · rw [queueBeacon_cpt, failed]
  · exact failed

@[simp] theorem enterParked_port (s : State) : portView (enterParked s).cpt = portView s.cpt := by
  unfold enterParked
  rw [queueBeacon_cpt, (withdrawTruckReqs_moves (parkClaims_moves (.refl _)) _ : Moves false _ _).port, setNode_port]

@[simp] theorem enterResuming_port (s : State) : portView (enterResuming s).cpt = portView s.cpt := by
  unfold enterResuming
  dsimp only
  rw [queueBeacon_cpt, setNode_port]

@[simp] theorem recheckPeers_port (s : State) (img : Image) : portView (recheckPeers s img).cpt = portView s.cpt := by
  have fold : ∀ (l : List Peer) (t : State),
      portView (l.foldl (fun t p => recheckPeer t img p) t).cpt = portView t.cpt := by
    intro l
    induction l with
    | nil => exact fun _ => rfl
    | cons p l ih =>
      intro t
      obtain ⟨u, hu, e⟩ := recheckPeer_eq t img p
      rw [List.foldl_cons, ih, e]
      exact hu.port
  exact fold s.ptb.peers s

@[simp] theorem takeImage_port (s : State) (img : Image) : portView (takeImage s img).cpt = portView s.cpt :=
  recheckPeers_port _ _

@[simp] theorem softReset_port (s : State) (t : Straps) : portView (softReset s t).cpt = portView s.cpt := by
  have discarded : portView (readStraps (discard (markUntracked s .restart)) t).cpt = portView s.cpt :=
    (markUntracked_moves (cmd := false) (.refl s) _).port
  unfold softReset
  dsimp only
  split
  · rw [enterFault_port, discarded]
  · split
    · rw [enterJoining_port, discarded]
    · rw [enterConfig_port, discarded]

end

/-! ## One answer -/

/-- A request of this tag has been answered between two states, with a response that is no repeat. -/
def AnswersOnce (tag : ReqTag) (r : Request) (s t : State) : Prop :=
  ∃ st why c, portView t.cpt = (s.cpt.reqBuf,
    if isRead (reqKind r) then s.cpt.lastReq
      else some { kind := reqKind r, tag := tag, response := responseTo tag r st why c },
    responses s.cpt ++ [responseTo tag r st why c])

section
variable {s t u : State} {tag : ReqTag} {r : Request}

theorem answer_once (s : State) (tag : ReqTag) (r : Request) (st : Status) (why : Reason) (c : RespContent) :
    AnswersOnce tag r s (answer s tag r st why c) := by
  refine ⟨st, why, c, ?_⟩
  cases h : isRead (reqKind r) <;>
    simp [answer, h, portView, responses, pushOut, responseOf, responseTo]

theorem AnswersOnce.port (h : AnswersOnce tag r s t) (k : portView u.cpt = portView t.cpt) : AnswersOnce tag r s u := by
  obtain ⟨st, why, c, h⟩ := h
  exact ⟨st, why, c, k.trans h⟩

theorem AnswersOnce.moves {b : Bool} (h : AnswersOnce tag r s t) (k : Moves b t u) : AnswersOnce tag r s u := h.port k.port

end

/-! ## The requests, one by one -/

section
variable (s : State) (tag : ReqTag) (r : Request)

theorem serveConfigure_once (es : List ConfigEntry) :
    AnswersOnce tag (.configure es) s (serveConfigure s tag (.configure es)) := by
  unfold serveConfigure
  dsimp only
  split
  · exact answer_once _ _ _ _ _ _
  · exact (answer_once s tag (.configure es) .ok .none (.count es.length)).port rfl

theorem serveStart_once : AnswersOnce tag r s (serveStart s tag r) := by
  unfold serveStart
  split
  · exact answer_once _ _ _ _ _ _
  · exact (answer_once s tag r .ok .none .none).port (by rw [enterJoining_port, takeImage_port])

theorem servePark_once : AnswersOnce tag r s (servePark s tag r) := by
  unfold servePark
  split
  · exact answer_once _ _ _ _ _ _
  split
  · exact answer_once _ _ _ _ _ _
  · exact (answer_once s tag r .ok .none .none).port (enterParked_port _)

theorem serveSubmit_once (o : Order) : AnswersOnce tag r s (serveSubmit s tag r o) := by
  have queued : AnswersOnce tag r s ((State.emit
      { answer s tag r .ok .none .none with
        moc.waiting := insertOrder o (answer s tag r .ok .none .none).moc.waiting }
      (.orderState o.id .queued)).hand .activate) :=
    (answer_once s tag r .ok .none .none).port ((((Moves.refl (cmd := false) _).emit _).hand _).port.trans rfl)
  unfold serveSubmit
  repeat' split
  case h_2 => exact queued
  all_goals exact answer_once _ _ _ _ _ _

theorem divertCancelled_moves (a : Active) : Moves false s (divertCancelled s a) := by
  have told := ((setActive_moves (cmd := false) (.refl s) (fun a => { a with primaryDropped := true })
    (by exact fun _ k => k)).emit (.cancelDiverted a.ord.id))
  unfold divertCancelled
  dsimp only
  split
  · exact told
  split
  · exact enterDecide_moves (dropDests_moves told) _
  · exact told

theorem cancelActive_once (a : Active) : AnswersOnce tag r s (cancelActive s tag r a) := by
  unfold cancelActive
  repeat' split
  · exact answer_once _ _ _ _ _ _
  · exact answer_once _ _ _ _ _ _
  · exact (answer_once _ _ _ _ _ _).moves (divertCancelled_moves _ _)
  · exact answer_once _ _ _ _ _ _
  · exact (answer_once _ _ _ _ _ _).moves (endOrder_moves (cmd := false) (.refl _) _)

theorem cancelWaiting_port (o : Order) : portView (cancelWaiting s o).cpt = portView s.cpt := by
  unfold cancelWaiting
  dsimp only
  rw [(keepEnded_moves ((Moves.refl (cmd := false) _).emit _) _).port]

theorem serveCancel_once (id : Nat) : AnswersOnce tag r s (serveCancel s tag r id) := by
  unfold serveCancel
  split
  · exact cancelActive_once _ _ _ _
  split
  · exact (answer_once _ _ _ _ _ _).port (cancelWaiting_port _ _)
  · exact answer_once _ _ _ _ _ _

theorem serveRedirect_once (id : Nat) (d : Dest) : AnswersOnce tag r s (serveRedirect s tag r id d) := by
  unfold serveRedirect
  repeat' split
  case isFalse => exact (answer_once _ _ _ _ _ _).moves
                    (enterDecide_moves (cmd := false) (setActive_moves (.refl _) _ (by exact fun _ k => k)) _)
  all_goals exact answer_once _ _ _ _ _ _

theorem serveTruck_once (bay : Nat) (k : TruckReqKind) : AnswersOnce tag r s (serveTruck s tag r bay k) := by
  unfold serveTruck
  repeat' split
  case isFalse =>
    refine .moves (.port (answer_once s tag r .accepted .none .none) ?_)
      ((ask_moves (cmd := false) (.refl _) _ 7 _).hand _)
    rfl
  all_goals exact answer_once _ _ _ _ _ _

theorem serveMapLoad_once (slot : Nat) (content : Option Content) (coil : Coil) :
    AnswersOnce tag r s (serveMapLoad s tag r slot content coil) := by
  unfold serveMapLoad
  repeat' split
  case isFalse => exact (answer_once _ _ _ _ _ _).moves (changeByRequest_moves (.refl _) _ _ _ _)
  all_goals exact answer_once _ _ _ _ _ _

theorem serveBlock_once (slot : Nat) (on : Bool) : AnswersOnce tag r s (serveBlock s tag r slot on) := by
  unfold serveBlock
  split
  · dsimp only
    split
    · exact answer_once _ _ _ _ _ _
    · exact (answer_once _ _ _ _ _ _).moves (changeOwn_moves (.refl _) _ _ _ _ _ _)
  · exact answer_once _ _ _ _ _ _

/-- A LOST peer's claims copy emptied: the record put into the table, and moves behind it (R89). -/
theorem forceClear_recorded (p : Peer) : Recorded s { p with claims := [], cleared := true } (forceClear s p) :=
  ⟨s, .refl s, copiesChanged_moves ((Moves.refl _).emit _)⟩

theorem Recorded.port {t : State} {q : Peer} (h : Recorded s q t) : portView t.cpt = portView s.cpt := by
  obtain ⟨v, h1, h2⟩ := h
  rw [h2.port]
  exact h1.port

theorem serveForceClear_once (n : Nat) : AnswersOnce tag r s (serveForceClear s tag r n) := by
  unfold serveForceClear
  split
  · exact answer_once _ _ _ _ _ _
  split
  · exact answer_once _ _ _ _ _ _
  split
  · exact (answer_once _ _ _ _ _ _).port (forceClear_recorded _ _).port
  · exact answer_once _ _ _ _ _ _

theorem serveVerifyZero_once : AnswersOnce tag r s (serveVerifyZero s tag r) := by
  unfold serveVerifyZero
  repeat' split
  case isFalse => exact (answer_once _ _ _ _ _ _).moves (testCapture_moves (beginCapture_moves (.refl _) _))
  all_goals exact answer_once _ _ _ _ _ _

theorem serveVerifySpan_once (img : Image) (mass : Nat) : AnswersOnce tag r s (serveVerifySpan s tag r img mass) := by
  unfold serveVerifySpan
  repeat' split
  case isFalse => exact (answer_once _ _ _ _ _ _).port rfl
  all_goals exact answer_once _ _ _ _ _ _

theorem serveReadSlots_once (start count : Nat) :
    AnswersOnce tag (.readSlots start count) s (serveReadSlots s tag (.readSlots start count)) := by
  unfold serveReadSlots
  dsimp only
  repeat' split
  case isFalse => exact (answer_once _ _ _ _ _ _).port rfl
  all_goals exact answer_once _ _ _ _ _ _

/-- What serves a request: the command of its kind takes it from the buffer, and answers it once. -/
theorem commandFor_serves (straps : Straps) : ∃ serve : State → ReqTag → Request → State,
    (∀ s, exec (commandFor (reqKind r) straps) s = .next (if isRead (reqKind r) then takeRequest s (reqKind r) serve
        else State.finish (takeRequest s (reqKind r) serve)))
      ∧ ∀ s tag, AnswersOnce tag r s (serve s tag r) := by
  cases r with
  | configure es => exact ⟨_, fun _ => rfl, fun s tag => serveConfigure_once s tag es⟩
  | start => exact ⟨_, fun _ => rfl, fun s tag => serveStart_once s tag _⟩
  | restart => exact ⟨_, fun _ => rfl, fun s tag => (answer_once s tag .restart .ok .none .none).port (softReset_port _ _)⟩
  | park => exact ⟨_, fun _ => rfl, fun s tag => servePark_once s tag _⟩
  | unpark => exact ⟨_, fun _ => rfl, fun s tag => (answer_once s tag .unpark .ok .none .none).port (enterResuming_port _)⟩
  | submitOrder o => exact ⟨_, fun _ => rfl, fun s tag => serveSubmit_once s tag _ o⟩
  | cancelOrder id => exact ⟨_, fun _ => rfl, fun s tag => serveCancel_once s tag _ id⟩
  | redirect id d => exact ⟨_, fun _ => rfl, fun s tag => serveRedirect_once s tag _ id d⟩
  | truckArrive bay d => exact ⟨_, fun _ => rfl, fun s tag => serveTruck_once s tag _ bay _⟩
  | truckReady bay => exact ⟨_, fun _ => rfl, fun s tag => serveTruck_once s tag _ bay _⟩
  | truckHold bay => exact ⟨_, fun _ => rfl, fun s tag => serveTruck_once s tag _ bay _⟩
  | truckDepart bay => exact ⟨_, fun _ => rfl, fun s tag => serveTruck_once s tag _ bay _⟩
  | mapLoad slot content coil => exact ⟨_, fun _ => rfl, fun s tag => serveMapLoad_once s tag _ slot content coil⟩
  | slotBlock slot => exact ⟨_, fun _ => rfl, fun s tag => serveBlock_once s tag _ slot true⟩
  | slotUnblock slot => exact ⟨_, fun _ => rfl, fun s tag => serveBlock_once s tag _ slot false⟩
  | claimForceClear n => exact ⟨_, fun _ => rfl, fun s tag => serveForceClear_once s tag _ n⟩
  | weighVerifyZero => exact ⟨_, fun _ => rfl, fun s tag => serveVerifyZero_once s tag _⟩
  | weighVerifySpan mass =>
    refine ⟨_, fun _ => rfl, ?_⟩
    intro s tag
    split
    · exact serveVerifySpan_once _ _ _ _ _
    · exact answer_once _ _ _ _ _ _
  | readStatus =>
    exact ⟨fun s tag r => answer s tag r .ok .none (.status (viewStatus s)), fun _ => rfl,
      fun s tag => answer_once _ _ _ _ _ _⟩
  | readSlot id =>
    refine ⟨_, fun _ => rfl, ?_⟩
    intro s tag
    unfold serveReadSlot
    dsimp only
    split <;> exact answer_once _ _ _ _ _ _
  | readSlots start count => exact ⟨_, fun _ => rfl, fun s tag => serveReadSlots_once s tag start count⟩
  | readPeer n =>
    refine ⟨_, fun _ => rfl, ?_⟩
    intro s tag
    unfold serveReadPeer
    dsimp only
    split <;> exact answer_once _ _ _ _ _ _
  | readTruck bay =>
    refine ⟨_, fun _ => rfl, ?_⟩
    intro s tag
    unfold serveReadTruck
    dsimp only
    split <;> exact answer_once _ _ _ _ _ _
  | readOrder id =>
    refine ⟨_, fun _ => rfl, ?_⟩
    intro s tag
    unfold serveReadOrder
    dsimp only
    split <;> exact answer_once _ _ _ _ _ _

end

theorem acceptedIn_of_isRead {k : ReqKind} (h : isRead k = true) (st : NodeState) : acceptedIn k st = (st != .reset) := by
  cases k <;> simp_all [isRead, acceptedIn]

theorem acceptedIn_iff (k : ReqKind) (st : NodeState) : acceptedIn k st = true ↔
    (k = .configure ∨ k = .start) ∧ st = .config ∨ k = .unpark ∧ st = .parked
      ∨ (k = .restart ∨ isRead k = true) ∧ st ≠ .reset
      ∨ k ≠ .configure ∧ k ≠ .start ∧ k ≠ .unpark ∧ k ≠ .restart ∧ isRead k = false ∧ st = .running := by
  cases k <;> simp [acceptedIn, isRead]

section
variable {s : State} {tag : ReqTag} {r : Request} (straps : Straps)

/-- The command of a request that repeats none ends with one answer to it. -/
theorem exec_answersOnce (h : TakesNow s tag r) :
    ∃ u, exec (commandFor (reqKind r) straps) s = .next u ∧ AnswersOnce tag r (dropRequest s) u := by
  obtain ⟨serve, he, once⟩ := commandFor_serves r straps
  have taken := takeRequest_takesNow h serve
  have answered : AnswersOnce tag r (dropRequest s) (takeRequest s (reqKind r) serve) := by
    rw [taken]
    split
    · exact once _ _
    · exact answer_dropRequest s tag r _ _ _ ▸ answer_once _ _ _ _ _ _
  refine ⟨_, he s, ?_⟩
  split
  · exact answered
  · exact answered.port (finish_frame _).port

theorem AnswersOnce.spec {u : State} (h : AnswersOnce tag r (dropRequest s) u) : ∃ resp,
    responses u.cpt = responses s.cpt ++ [resp]
      ∧ resp.seq = tag.seq ∧ resp.kind = .known (reqKind r) ∧ resp.repeated = false
      ∧ u.cpt.reqBuf = s.cpt.reqBuf.drop 1
      ∧ (isRead (reqKind r) = false → u.cpt.lastReq = some { kind := reqKind r, tag := tag, response := resp })
      ∧ (isRead (reqKind r) = true → u.cpt.lastReq = s.cpt.lastReq) := by
  obtain ⟨st, why, c, h⟩ := h
  simp only [portView, Prod.mk.injEq] at h
  obtain ⟨buf, last, resp⟩ := h
  exact ⟨_, resp, rfl, rfl, rfl, buf, fun hr => by rw [last, hr]; rfl, fun hr => by rw [last, hr]; rfl⟩

/-- A request outside its states is answered BAD_STATE, and that is all (R201). -/
theorem settles_badState (h : TakesNow s tag r) (ha : acceptedIn (reqKind r) s.rlc.nodeState = false) :
    Settles (commandFor (reqKind r) straps) s (afterAnswer s tag r .badState .none .none) := by
  obtain ⟨serve, he, _⟩ := commandFor_serves r straps
  obtain ⟨⟨out_of_reset, _⟩, _⟩ := id h
  have not_read : ¬ isRead (reqKind r) = true := fun hr => by
    rw [acceptedIn_of_isRead hr] at ha
    exact out_of_reset (by simpa using ha)
  refine .of_exec ?_
  rw [he, if_neg not_read, takeRequest_takesNow h, if_neg (by simp [ha])]

/-- A repeated request is answered again, and that is all (R202). -/
theorem settles_repeated (h : AtHead s tag r) (hr : isRead (reqKind r) = false) {a : Answered}
    (ha : s.cpt.lastReq = some a) (hk : a.kind = reqKind r) (ht : a.tag = tag) :
    Settles (commandFor (reqKind r) straps) s
      ((dropRequest s).queueResponse { a.response with repeated := true }) := by
  obtain ⟨serve, he, _⟩ := commandFor_serves r straps
  refine .of_exec ?_
  rw [he, if_neg (by simp [hr]), takeRequest_repeated h hr ha hk ht]

end

theorem headBad_of {s : State} {seq : Nat} {k : RespKind} {why : Reason} (hn : s.rlc.nodeState ≠ .reset)
    (hb : s.cpt.reqBuf.head? = some (.bad seq k why)) (room : waitingOut isResponse s.cpt.out < 8) :
    headBad s = some (seq, k, why) := by
  obtain ⟨rest, hb⟩ := List.head?_eq_some_iff.mp hb
  have may : mayTake s = true := (mayTake_iff s).mpr ⟨hn, room⟩
  simp only [headBad, hb, may, if_true]

/-- Settles O48: every request's command answers once; outside its states, and repeated, it does nothing else. -/
theorem requestsAreAnsweredOnce : Obligations.RequestsAreAnsweredOnce := by
  refine ⟨fun s tag r straps h => ⟨?_, settles_badState straps h⟩, fun s tag r straps a h hr ha hk ht => settles_repeated straps h hr ha hk ht,
    fun s seq k why hn hb room => ?_, acceptedIn_iff⟩
  · obtain ⟨u, he, once⟩ := exec_answersOnce straps h
    obtain ⟨resp, spec⟩ := once.spec
    exact ⟨u, resp, he, spec⟩
  · change execUnknownRequestTaken s = _
    simp only [execUnknownRequestTaken, headBad_of hn hb room]
    rfl

end Sys2Proof.Machine
end

section
/-! The requests on the slot map and on a peer's claims: MAP_LOAD, SLOT_BLOCK, SLOT_UNBLOCK and CLAIM_FORCE_CLEAR. -/

namespace Sys2Proof.Machine

/-! ## A request served -/

section
variable {s : State} {tag : ReqTag} {r : Request}

/-- A request in a state that accepts it is served, and the hand-ons behind it. -/
theorem request_takesNow (h : TakesNow s tag r) (ha : acceptedIn (reqKind r) s.rlc.nodeState = true)
    (serve : State → ReqTag → Request → State) :
    s.request (reqKind r) serve = .next (State.finish (serve (dropRequest s) tag r)) := by
  rw [State.request, takeRequest_takesNow h, if_pos ha]

end

/-! ## The slot map -/

/-- The record of a slot after one record of the map is replaced. -/
theorem slotRec_putSlot (m : Smu) (id k : Nat) (r : SlotRec) :
    slotRec (putSlot m id r) k = if k = id then (slotRec m k).map fun _ => r else slotRec m k := by
  have same : (fun t : Slot => t.id == k) ∘ (fun t : Slot => if t.id == id then { t with data := r } else t)
      = fun t => t.id == k := by
    funext t
    simp only [Function.comp_apply]
    split <;> rfl
  simp only [slotRec, putSlot, List.find?_map, same]
  cases h : m.slots.find? fun t => t.id == k with
  | none => simp
  | some t =>
    have ht : t.id = k := by simpa using List.find?_some h
    simp only [Option.map_some, ht, beq_iff_eq]
    split <;> rfl

theorem slotRec_putSlot_same {m : Smu} {id : Nat} {r q : SlotRec} (h : slotRec m id = some q) :
    slotRec (putSlot m id r) id = some r := by
  rw [slotRec_putSlot, if_pos rfl, h]
  rfl

theorem slotRec_putSlot_other {m : Smu} {id k : Nat} {r : SlotRec} (h : k ≠ id) :
    slotRec (putSlot m id r) k = slotRec m k := by
  rw [slotRec_putSlot, if_neg h]

theorem Moves.ite {b : Bool} {s t u : State} {c : Prop} [Decidable c] (h : Moves b s t) (k : Moves b s u) :
    Moves b s (if c then t else u) := by
  split
  · exact h
  · exact k

/-- A slot change (R102): the record put into the map, and moves of the blocks behind it. -/
theorem changeSlot_eq_moves (s : State) (img : Image) (id : Nat) (r : SlotRec) (src : ChangeReport) :
    Moves false { s with smu := putSlot s.smu id r } (changeSlot s img id r src) := by
  have topped : Moves false { s with smu := putSlot s.smu id r } (if topsDiffer img s.smu (putSlot s.smu id r) id then
      State.compute { s with smu := putSlot s.smu id r } else { s with smu := putSlot s.smu id r }) :=
    .ite (Moves.refl _).compute (.refl _)
  unfold changeSlot
  dsimp only
  split
  · exact .ite ((topped.emit _).hand _) (topped.emit _)
  · exact (Moves.ite ((topped.emit _).hand _) (topped.emit _)).hand _

/-- A slot change leaves all but the slot map as the hand-ons leave it. -/
theorem changeSlot_frame (s : State) (img : Image) (id : Nat) (r : SlotRec) (src : ChangeReport) :
    HandOnFrame { s with smu := putSlot s.smu id r } (changeSlot s img id r src) := (changeSlot_eq_moves s img id r src).frame

/-! ## MAP_LOAD -/

/-- The coil fields of a MAP_LOAD go with its content and lie in range (R103). -/
theorem mapLoad_good (img : Image) (c : Content) (coil : Coil) :
    (coilMisplaced c coil || !coilInRange img coil) = false
      ↔ (c = .occupied ∨ coil = {}) ∧ coilInRange img coil = true := by
  simp only [coilMisplaced, Bool.or_eq_false_iff, Bool.and_eq_false_iff, bne_eq_false_iff_eq, Bool.not_eq_false']

/-- A slot is changed in the map, and nothing else differs than by hand-ons. -/
structure SlotChanged (s : State) (id : Nat) (r : SlotRec) (u : State) : Prop where
  frame : HandOnFrame { s with smu := u.smu } u
  tracking : u.smu.tracking = s.smu.tracking
  changed : slotRec u.smu id = some r
  others : ∀ k, k ≠ id → slotRec u.smu k = slotRec s.smu k

section
variable {s u : State} {id : Nat} {q r : SlotRec}

theorem SlotChanged.finish (h : SlotChanged s id r u) : SlotChanged s id r (State.finish u) := by
  have smu := (finish_frame u).smu
  exact ⟨smu ▸ h.frame.trans (finish_frame u), smu ▸ h.tracking, smu ▸ h.changed, smu ▸ h.others⟩

theorem changeSlot_changed (img : Image) (src : ChangeReport) (h : slotRec s.smu id = some q) :
    SlotChanged s id r (changeSlot s img id r src) := by
  have frame := changeSlot_frame s img id r src
  have smu := frame.smu
  exact ⟨smu ▸ frame, smu ▸ rfl, smu ▸ slotRec_putSlot_same h, smu ▸ fun k hk => slotRec_putSlot_other hk⟩

theorem changeByRequest_changed (img : Image) (src : ChangeReport) (h : slotRec s.smu id = some q) :
    SlotChanged s id r (changeByRequest s img id r src) := by
  unfold changeByRequest
  split
  · exact ⟨.refl s, rfl, ‹_›, fun _ _ => rfl⟩
  · exact changeSlot_changed img src h

end

section
variable {s : State} {tag : ReqTag} {slot : Nat} {content : Option Content} {coil : Coil}

theorem exec_mapLoad (h : TakesNow s tag (.mapLoad slot content coil)) (hn : s.rlc.nodeState = .running) :
    exec .mapLoad s = .next (State.finish
      (serveMapLoad (dropRequest s) tag (.mapLoad slot content coil) slot content coil)) :=
  request_takesNow h (hn ▸ rfl) _

theorem serveMapLoad_noSlot {s : State} {r : Request}
    (h : s.cpt.image = none ∨ slotRec s.smu slot = none ∨ content = none) :
    serveMapLoad s tag r slot content coil = answer s tag r .badArg .argument .none := by
  unfold serveMapLoad
  split
  · simp_all
  · rfl

/-- MAP_LOAD of an existing slot (R103): BAD_ARG by its fields, ignored on a blocked slot, else the slot is changed. -/
theorem serveMapLoad_cases {s : State} {r : Request} {img : Image} {q : SlotRec} {c : Content}
    (hi : s.cpt.image = some img) (hq : slotRec s.smu slot = some q) :
    let good := (c = .occupied ∨ coil = {}) ∧ coilInRange img coil = true
    (¬ good → serveMapLoad s tag r slot (some c) coil = answer s tag r .badArg .argument .none)
      ∧ (good → q.blocked = true → serveMapLoad s tag r slot (some c) coil = answer s tag r .ok .ignoredBlocked .none)
      ∧ (good → q.blocked = false → serveMapLoad s tag r slot (some c) coil
          = changeByRequest (answer s tag r .ok .none .none) img slot
              { q with content := c, coil := coil, disputed := false, source := some .mapLoad } (.source .mapLoad)) := by
  have fields := mapLoad_good img c coil
  refine ⟨fun bad => ?_, fun good hb => ?_, fun good hb => ?_⟩
  · have bad := mt fields.mp bad
    rw [Bool.not_eq_false] at bad
    simp only [serveMapLoad, hi, hq, if_pos bad]
  · have good := fields.mpr good
    simp only [serveMapLoad, hi, hq, good, hb, if_true, Bool.false_eq_true, if_false]
  · have good := fields.mpr good
    simp only [serveMapLoad, hi, hq, good, hb, Bool.false_eq_true, if_false]

end

/-! ## SLOT_BLOCK and SLOT_UNBLOCK -/

section
variable {s : State} {tag : ReqTag} {slot : Nat}

theorem exec_block (on : Bool) (straps : Straps)
    (h : TakesNow s tag (if on then .slotBlock slot else .slotUnblock slot)) (hn : s.rlc.nodeState = .running) :
    exec (commandFor (reqKind (if on then .slotBlock slot else .slotUnblock slot)) straps) s
      = .next (State.finish
          (serveBlock (dropRequest s) tag (if on then .slotBlock slot else .slotUnblock slot) slot on)) := by
  cases on with
  | true => exact request_takesNow h (hn ▸ rfl) _
  | false => exact request_takesNow h (hn ▸ rfl) _

theorem serveBlock_noSlot {s : State} {r : Request} (on : Bool) (h : s.cpt.image = none ∨ slotRec s.smu slot = none) :
    serveBlock s tag r slot on = answer s tag r .badArg .argument .none := by
  unfold serveBlock
  split
  · simp_all
  · rfl

/-- A NOTICE issued (R12): its sequence and window, and the queue. -/
theorem issueNotice_frame (s : State) (slot : Nat) (kind : NoticeKind) (coil : Coil) :
    let u := s.issueNotice slot kind coil
    HandOnFrame { s with rlc := { s.rlc with noticeSeq := nextNoticeSeq s.rlc.noticeSeq, notices := u.rlc.notices } } u
      ∧ u.rlc.notices.getLast? = some { left := 2, notice :=
          { seq := nextNoticeSeq s.rlc.noticeSeq, slot := slot, kind := kind, coil := coil } } := by
  refine ⟨?_, ?_⟩
  · unfold State.issueNotice
    dsimp only
    rw [offer_notices]
    exact ((Moves.refl _).offer _).frame
  · simp [State.issueNotice]

/-- A change of the own crane (R102): the slot changed, and its NOTICE issued. -/
theorem finish_changeOwn {img : Image} {r q : SlotRec} (src : ChangeReport) (kind : NoticeKind) (coil : Coil)
    (h : slotRec s.smu slot = some q) :
    let u := State.finish (changeOwn s img slot r src kind coil)
    let k := nextNoticeSeq s.rlc.noticeSeq
    HandOnFrame { s with smu := u.smu, rlc := { s.rlc with noticeSeq := k, notices := u.rlc.notices } } u
      ∧ slotRec u.smu slot = some r ∧ (∀ id, id ≠ slot → slotRec u.smu id = slotRec s.smu id)
      ∧ u.rlc.notices.getLast? = some { left := 2, notice := { seq := k, slot := slot, kind := kind, coil := coil } } := by
  have change := changeSlot_changed (r := r) img src h
  obtain ⟨issued, last⟩ := issueNotice_frame (changeSlot s img slot r src) slot kind coil
  have served := finish_frame (changeOwn s img slot r src kind coil)
  have seq : (changeSlot s img slot r src).rlc.noticeSeq = s.rlc.noticeSeq := by
    rw [change.frame.rlc]
  rw [seq] at issued last
  have told := (change.frame.with_rlc (fun l => { l with
    noticeSeq := nextNoticeSeq s.rlc.noticeSeq,
    notices := ((changeSlot s img slot r src).issueNotice slot kind coil).rlc.notices })
    fun _ _ _ _ _ _ _ => rfl).trans (issued.trans served)
  have smu : (State.finish (changeOwn s img slot r src kind coil)).smu = (changeSlot s img slot r src).smu := told.smu
  have notices : (State.finish (changeOwn s img slot r src kind coil)).rlc.notices
      = ((changeSlot s img slot r src).issueNotice slot kind coil).rlc.notices := by
    rw [served.rlc]
    rfl
  dsimp only
  rw [smu, notices]
  exact ⟨told, change.changed, change.others, last⟩

theorem serveBlock_of {s : State} {r : Request} {img : Image} {q : SlotRec} (on : Bool) (hi : s.cpt.image = some img)
    (hq : slotRec s.smu slot = some q) : serveBlock s tag r slot on =
      if q.blocked = on then answer s tag r .ok .none .none
      else changeOwn (answer s tag r .ok .none .none) img slot { q with blocked := on } .block
        (if on then .setBlock else .clearBlock) {} := by
  simp only [serveBlock, hi, hq]

/-! ## CLAIM_FORCE_CLEAR -/

theorem exec_claimForceClear {n : Nat} (h : TakesNow s tag (.claimForceClear n)) (hn : s.rlc.nodeState = .running) :
    exec .claimForceClear s = .next (State.finish (serveForceClear (dropRequest s) tag (.claimForceClear n) n)) :=
  request_takesNow h (hn ▸ rfl) _

/-- CLAIM_FORCE_CLEAR by the first test that fails (R89). -/
theorem serveForceClear_cases (s : State) (tag : ReqTag) (r : Request) (n : Nat) :
    let peer := 1 ≤ n ∧ n ≤ 8 ∧ s.rlc.craneNo ≠ some n
    (¬ peer → serveForceClear s tag r n = answer s tag r .badArg .argument .none)
      ∧ (peer → peerAt s.ptb n = none → serveForceClear s tag r n = answer s tag r .refused .noPeer .none)
      ∧ ∀ p, peer → peerAt s.ptb n = some p →
        (p.liveness ≠ .lost → serveForceClear s tag r n = answer s tag r .refused .peerNotLost .none)
          ∧ (p.liveness = .lost → serveForceClear s tag r n = forceClear (answer s tag r .ok .none .none) p) := by
  have test : (¬(1 ≤ n ∧ n ≤ 8) ∨ s.rlc.craneNo = some n) ↔ ¬(1 ≤ n ∧ n ≤ 8 ∧ s.rlc.craneNo ≠ some n) := by tauto
  refine ⟨fun h => if_pos (test.mpr h), fun h hp => ?_, fun p h hp => ⟨fun hl => ?_, fun hl => ?_⟩⟩
  · have h := mt test.mp (not_not.mpr h)
    simp only [serveForceClear, if_neg h, hp]
  · have h := mt test.mp (not_not.mpr h)
    simp only [serveForceClear, if_neg h, hp, if_neg hl]
  · have h := mt test.mp (not_not.mpr h)
    simp only [serveForceClear, if_neg h, hp, if_pos hl]

end

/-- A request that is only answered settles in the state after its answer. -/
theorem Settles.of_answer {c : Instr} {s v : State} {tag : ReqTag} {r : Request} {st : Status} {why : Reason}
    {con : RespContent} (h : exec c s = .next (State.finish v)) (hv : v = answer (dropRequest s) tag r st why con) :
    Settles c s (afterAnswer s tag r st why con) := by
  rw [hv, answer_dropRequest] at h
  exact .of_exec h

/-- Settles O57: each request by the test that decides its answer, and by the slot or record it changes. -/
theorem mapAndClaimRequests : Obligations.MapAndClaimRequests := by
  refine ⟨fun s tag slot content coil h hn => ⟨fun none => ?_, fun img q c hi hq hc => ?_⟩,
    fun s tag slot on straps h hn => ⟨fun none => ?_, fun img q hi hq => ⟨fun hb => ?_, fun hb => ?_⟩⟩,
    fun s tag n h hn => ?_⟩
  · exact .of_answer (exec_mapLoad h hn) (serveMapLoad_noSlot none)
  · subst hc
    obtain ⟨bad, ignored, changes⟩ := serveMapLoad_cases (s := dropRequest s) (tag := tag) (c := c) (coil := coil)
      (r := .mapLoad slot (some c) coil) hi hq
    refine ⟨fun hg => .of_answer (exec_mapLoad h hn) (bad hg), fun hg hb => .of_answer (exec_mapLoad h hn) (ignored hg hb),
      fun hg hb => ?_⟩
    have served := exec_mapLoad h hn
    rw [changes hg hb, answer_dropRequest] at served
    have change := (changeByRequest_changed (s := afterAnswer s tag (.mapLoad slot (some c) coil) .ok .none .none)
      (r := { q with content := c, coil := coil, disputed := false, source := some .mapLoad }) img (.source .mapLoad)
      hq).finish
    exact ⟨_, served, change.frame, change.tracking, change.changed, change.others⟩
  · exact .of_answer (exec_block on straps h hn) (serveBlock_noSlot on none)
  · exact .of_answer (exec_block on straps h hn)
      ((serveBlock_of (s := dropRequest s) on hi hq).trans (if_pos hb))
  · have served := exec_block on straps h hn
    rw [serveBlock_of (s := dropRequest s) on hi hq, if_neg hb, answer_dropRequest] at served
    exact ⟨_, served, finish_changeOwn .block _ {} hq⟩
  · obtain ⟨bad, unknown, known⟩ := serveForceClear_cases (dropRequest s) tag (.claimForceClear n) n
    refine ⟨fun hp => .of_answer (exec_claimForceClear h hn) (bad hp),
      fun hp hat => .of_answer (exec_claimForceClear h hn) (unknown hp hat), fun p hp hat => ⟨fun hl =>
        .of_answer (exec_claimForceClear h hn) ((known p hp hat).1 hl), fun hl => ?_⟩⟩
    have served := exec_claimForceClear h hn
    rw [(known p hp hat).2 hl, answer_dropRequest] at served
    have cleared := (forceClear_recorded (afterAnswer s tag (.claimForceClear n) .ok .none .none) p).finish
    obtain ⟨_, rfl⟩ := mem_of_peerAt hat
    obtain ⟨found, others⟩ := cleared.lookup
    exact ⟨_, served, cleared.frame, found, others⟩

end Sys2Proof.Machine
end

section
/-! CONFIGURE and START: the image under construction, the image taken, and the entry to JOINING. -/

namespace Sys2Proof.Machine

/-! ## The image under construction (R214) -/

/-- A value held is replaced in its place. -/
theorem draftGet_replaced (d : Draft) (p q : Param) (v : Int) :
    draftGet (d.map fun e => if e.1 == p then (p, v) else e) q
      = if q = p then (draftGet d q).map fun _ => v else draftGet d q := by
  have same : (fun e : Param × Int => e.1 == q) ∘ (fun e : Param × Int => if e.1 == p then (p, v) else e)
      = fun e => e.1 == q := by
    funext e
    simp only [Function.comp_apply]
    split
    · rename_i hp
      rw [eq_of_beq hp]
    · rfl
  simp only [draftGet, List.find?_map, same]
  cases h : d.find? fun e => e.1 == q with
  | none => simp
  | some e =>
    have he : e.1 = q := by simpa using List.find?_some h
    simp only [Option.map_some, he, beq_iff_eq]
    split <;> rfl

theorem draftGet_draftPut (d : Draft) (p q : Param) (v : Int) :
    draftGet (draftPut d p v) q = if q = p then some v else draftGet d q := by
  unfold draftPut
  by_cases present : (d.any fun e => e.1 == p) = true
  · rw [if_pos present, draftGet_replaced]
    split_ifs with heq
    · have found : (draftGet d q).isSome = true := by
        rw [draftGet, Option.isSome_map, List.find?_isSome, heq]
        simpa using present
      obtain ⟨w, hw⟩ := Option.isSome_iff_exists.mp found
      rw [hw]
      rfl
    · rfl
  · have none_held : d.find? (fun e => e.1 == p) = none :=
      List.find?_eq_none.mpr fun e he hp => present (List.any_eq_true.mpr ⟨e, he, hp⟩)
    rw [if_neg present]
    split_ifs with heq
    · subst heq
      rw [draftGet, List.find?_append, none_held, Option.none_or]
      simp
    · have other : ¬ p = q := fun e => heq e.symm
      simp [draftGet, List.find?_append, other]

theorem applyEntries_cons (d : Draft) (e : ConfigEntry) (es : List ConfigEntry) :
    applyEntries d (e :: es) = applyEntries (e.param.elim d fun p => draftPut d p e.value) es := by
  cases h : e.param <;> simp [applyEntries, h]

/-- A parameter that no entry names keeps its value. -/
theorem draftGet_applyEntries_other {es : List ConfigEntry} {p : Param} (h : ∀ e ∈ es, e.param ≠ some p) (d : Draft) :
    draftGet (applyEntries d es) p = draftGet d p := by
  induction es generalizing d with
  | nil => rfl
  | cons e es ih =>
    rw [applyEntries_cons, ih fun e' he' => h e' (List.mem_cons_of_mem _ he')]
    cases hp : e.param with
    | none => rfl
    | some q =>
      have other : ¬ p = q := fun heq => h e List.mem_cons_self (heq ▸ hp)
      exact (draftGet_draftPut d q p e.value).trans (if_neg other)

/-- With no parameter named twice, each entry's value is set. -/
theorem draftGet_applyEntries {es : List ConfigEntry} (nodup : (es.map (·.param)).Nodup) (d : Draft) :
    ∀ e ∈ es, ∀ p, e.param = some p → draftGet (applyEntries d es) p = some e.value := by
  induction es generalizing d with
  | nil => simp
  | cons e es ih =>
    rw [List.map_cons, List.nodup_cons] at nodup
    obtain ⟨first, rest⟩ := nodup
    intro e' he' p hp
    rw [applyEntries_cons]
    rcases List.mem_cons.mp he' with rfl | he'
    · rw [draftGet_applyEntries_other, hp]
      · exact (draftGet_draftPut d p p e'.value).trans (if_pos rfl)
      · exact fun f hf hfp => first (List.mem_map.mpr ⟨f, hf, hfp.trans hp.symm⟩)
    · exact ih rest _ e' he' p hp

/-! ## What CONFIGURE answers -/

theorem mem_upTo {n k : Nat} : k ∈ upTo n ↔ 1 ≤ k ∧ k ≤ n := by
  simp only [upTo, List.mem_map, List.mem_range]
  exact ⟨fun ⟨i, hi, hk⟩ => by omega, fun ⟨h1, hn⟩ => ⟨k - 1, by omega, by omega⟩⟩

theorem firstUnknown_eq_none {es : List ConfigEntry} :
    firstUnknown es = none ↔ ∀ e ∈ es, ∃ p, e.param = some p ∧ indexOk p = true := by
  simp only [firstUnknown, Option.map_eq_none_iff, List.findIdx?_eq_none_iff]
  refine forall₂_congr fun e _ => ?_
  cases e.param <;> simp

theorem firstTwice_eq_none {es : List ConfigEntry} : firstTwice es = none ↔ (es.map (·.param)).Nodup := by
  have earlier : firstTwice es = none
      ↔ ∀ j (hj : j < es.length), ∀ d ∈ es.take j, d.param ≠ es[j].param := by
    rw [firstTwice, List.find?_eq_none]
    refine ⟨fun h j hj d hd => ?_, fun h k hk => ?_⟩
    · have := h (j + 1) (mem_upTo.mpr ⟨by omega, by omega⟩)
      simp only [Nat.add_sub_cancel, List.getElem?_eq_getElem hj, List.any_eq_true, beq_iff_eq, not_exists,
        not_and] at this
      exact this d hd
    · obtain ⟨h1, hn⟩ := mem_upTo.mp hk
      have hj : k - 1 < es.length := by omega
      simp only [List.getElem?_eq_getElem hj, List.any_eq_true, beq_iff_eq, not_exists, not_and]
      exact h (k - 1) hj
  rw [earlier, List.nodup_iff_pairwise_ne, List.pairwise_map, List.pairwise_iff_getElem]
  refine ⟨fun h i j _ hj hij => h j hj _ (List.mem_take_iff_getElem.mpr ⟨i, by omega, rfl⟩), fun h j hj d hd => ?_⟩
  obtain ⟨i, hi, rfl⟩ := List.mem_take_iff_getElem.mp hd
  exact h i j (by omega) hj (by omega)

theorem configFail_eq_none {es : List ConfigEntry} : configFail es = none ↔
    es ≠ [] ∧ es.length ≤ 64 ∧ (∀ e ∈ es, ∃ p, e.param = some p ∧ indexOk p = true) ∧ (es.map (·.param)).Nodup := by
  rw [← firstUnknown_eq_none, ← firstTwice_eq_none, configFail]
  split_ifs with h
  · rcases h with h | h
    · simp [h]
    · have long : ¬ es.length ≤ 64 := by omega
      simp [long]
  · have : es ≠ [] ∧ es.length ≤ 64 := by
      rw [not_or] at h
      exact ⟨h.1, by omega⟩
    cases firstUnknown es <;> simp [this]

end Sys2Proof.Machine
end

section
/-! START: the image taken, JOINING entered; and the permits of a node that may not move. -/

namespace Sys2Proof.Machine

/-! ## Permits outside RUNNING -/

section
variable {s t u : State}

/-- Outside RUNNING, and out of RESET, a computation gives six permits of 0 with cause STATE (R68). -/
theorem compute_permits (hr : s.rlc.nodeState ≠ .running) (h0 : s.rlc.nodeState ≠ .reset) :
    s.compute.epu.record.permits = zeroPermits .state := by
  have record (t : State) : t.emitRecord.epu.record = t.epu.record := by
    unfold State.emitRecord
    split <;> rfl
  rw [State.compute, if_neg h0]
  dsimp only
  rw [record]
  unfold computeEpu
  dsimp only
  split
  · rfl
  · exact if_pos hr

/-- The permits of 0 stay while the node is not in RUNNING. -/
theorem Moves.permits (h : Moves false s t) (hr : s.rlc.nodeState ≠ .running)
    (hz : s.epu.record.permits = zeroPermits .state) : t.epu.record.permits = zeroPermits .state := by
  induction h with
  | refl => exact hz
  | @tail v w hsv m ih =>
    have node := hsv.nodeState
    cases m with
    | compute =>
      by_cases h0 : v.rlc.nodeState = .reset
      · rw [State.compute, if_pos h0]
        exact ih
      · exact compute_permits (node ▸ hr) h0
    | offer => rw [offer_epu]; exact ih
    | changeWindow => rw [State.openChangeWindow, offer_epu]; exact ih
    | _ => exact ih

theorem setNode_permits {st : NodeState} (hr : st ≠ .running) (h0 : st ≠ .reset) (s : State) (c : FaultCause) :
    (setNode s st c).epu.record.permits = zeroPermits .state := by
  unfold setNode
  exact compute_permits (by exact hr) (by exact h0)

end

/-! ## JOINING entered -/

/-- The RLC as it enters JOINING, before its JOIN is queued (R18). -/
def joiningRlc (s : State) : Rlc :=
  { s.rlc with nodeState := .joining, pattern := some (1 + s.drawn % 65535), joinConfirmed := false,
               joinDue := some (s.now + 200), joinEnd := some (s.now + 1000), txSince := s.now }

/-- JOINING entered, with the queue empty and the JOIN still to be queued. -/
def nowJoining (s : State) : State :=
  setNode { s.clearQueue with draws := s.draws + 1, rlc := { joiningRlc s with
    nodeState := s.rlc.nodeState, queue := [], access := .none, attempts := 0, wire := [] } } .joining .none

section
variable (s : State)

theorem enterJoining_eq :
    enterJoining s = (nowJoining s).offer (.fixed (.join (1 + s.drawn % 65535) s.sample.x)) := rfl

theorem nowJoining_frame : HandOnFrame { s with rlc := joiningRlc s } (nowJoining s) := by
  refine .trans ?_ (setNode_moves _ _ _).frame
  exact ⟨rfl, rfl, rfl, rfl, rfl, rfl, rfl, rfl, .inl rfl, rfl, rfl, rfl⟩

theorem enterJoining_frame : HandOnFrame { s with rlc := joiningRlc s } (enterJoining s) :=
  (nowJoining_frame s).moves ((Moves.refl _).offer _)

/-- The queue is emptied, and the JOIN is its only frame (R1, R18). -/
theorem enterJoining_queue : (enterJoining s).rlc.queue = [.fixed (.join (1 + s.drawn % 65535) s.sample.x)] := by
  have empty : (nowJoining s).rlc.queue = [] := setNode_queue _ _ _
  rw [enterJoining_eq, (offer_joins _ _ (by simp [isRefilled]) (by simp [empty])).1, empty]
  rfl

theorem enterJoining_permits : (enterJoining s).epu.record.permits = zeroPermits .state := by
  rw [enterJoining_eq, offer_epu]
  exact setNode_permits (by decide) (by decide) _ _

end

/-! ## The image taken -/

section
variable {s : State} {img : Image}

theorem recheckPeers_frame (s : State) (img : Image) :
    HandOnFrame { s with ptb := (recheckPeers s img).ptb } (recheckPeers s img) := by
  have fold : ∀ (l : List Peer) (t : State), HandOnFrame { s with ptb := t.ptb } t →
      let u := l.foldl (fun t p => recheckPeer t img p) t
      HandOnFrame { s with ptb := u.ptb } u := by
    intro l
    induction l with
    | nil => exact fun _ h => h
    | cons p l ih =>
      intro t h
      refine ih _ ?_
      obtain ⟨v, hv, e⟩ := recheckPeer_eq t img p
      dsimp only
      rw [e]
      exact (h.moves hv).put (.refl _)
  exact fold s.ptb.peers s (.refl s)

theorem clamp_bounds {hi v : Int} (h : 0 ≤ hi) : 0 ≤ clamp 0 hi v ∧ clamp 0 hi v ≤ hi := by
  rw [clamp_eq h]
  omega

/-- A record lies on the runway, and its profile in the ranges (R35, R37). -/
def FitsImage (img : Image) (p : Peer) : Prop :=
  0 ≤ p.x ∧ p.x ≤ img.runway ∧ ∀ f, p.profile = some f → profileInRange f = true

theorem recheckedPeer_fits (h : 0 ≤ img.runway) (p : Peer) : FitsImage img (recheckedPeer img p) := by
  obtain ⟨lo, hi⟩ := clamp_bounds (v := p.x) h
  refine ⟨lo, hi, fun f hf => ?_⟩
  unfold recheckedPeer at hf
  cases hp : p.profile with
  | none => simp [hp] at hf
  | some g =>
    simp only [hp] at hf
    split at hf
    · simp at hf
    · rename_i good
      cases hf
      simpa using good

theorem insertPeer_mem (p : Peer) (l : List Peer) : p ∈ insertPeer p l := by
  induction l with
  | nil => simp [insertPeer]
  | cons q qs ih =>
    unfold insertPeer
    split
    · exact List.mem_cons_self
    split
    · exact List.mem_cons_self
    · exact List.mem_cons_of_mem _ ih

/-- Two records of one number are one record, in a table by rising crane number. -/
theorem peer_unique {l : List Peer} (h : l.Pairwise fun p q => p.n < q.n) {p q : Peer} (hp : p ∈ l) (hq : q ∈ l)
    (hn : p.n = q.n) : p = q := by
  have nodup : (l.map (·.n)).Nodup := List.pairwise_map.mpr (h.imp Nat.ne_of_lt)
  exact List.inj_on_of_nodup_map nodup hp hq hn

/-- Every record of a table by rising crane number fits the image after START (R35, R37). -/
theorem recheckPeers_fit (h : 0 ≤ img.runway) (sorted : s.ptb.peers.Pairwise fun p q => p.n < q.n) :
    ∀ p ∈ (recheckPeers s img).ptb.peers, FitsImage img p := by
  have fold : ∀ (l : List Peer) (t : State), t.ptb.peers.Pairwise (fun p q => p.n < q.n) →
      (∀ p ∈ t.ptb.peers, FitsImage img p ∨ p ∈ l) →
      ∀ p ∈ (l.foldl (fun t p => recheckPeer t img p) t).ptb.peers, FitsImage img p := by
    intro l
    induction l with
    | nil => exact fun t _ fits p hp => (fits p hp).resolve_right List.not_mem_nil
    | cons p l ih =>
      intro t sorted fits
      obtain ⟨v, hv, e⟩ := recheckPeer_eq t img p
      have table : (recheckPeer t img p).ptb.peers = insertPeer (recheckedPeer img p) t.ptb.peers := by
        rw [e, ← hv.ptb]
        rfl
      have after := insertPeer_pairwise (p := recheckedPeer img p) sorted
      rw [List.foldl_cons]
      refine ih _ (table ▸ after) fun q hq => ?_
      rw [table] at hq
      rcases mem_insertPeer hq with rfl | old
      · exact .inl (recheckedPeer_fits h p)
      rcases fits q old with fit | left
      · exact .inl fit
      rcases List.mem_cons.mp left with rfl | left
      · have same := peer_unique after hq (insertPeer_mem (recheckedPeer img q) t.ptb.peers) rfl
        exact .inl (same ▸ recheckedPeer_fits h q)
      · exact .inr left
  exact fold s.ptb.peers s sorted fun _ => .inr

/-- The state as it takes an image, before the peers are rechecked (R216). -/
def imageTaken (s : State) (img : Image) : State :=
  { s with
    cpt := { s.cpt with image := some img, held := s.cpt.held.map (reclampSample img) }
    smu := { s.smu with slots := formMap img }
    wgu := { s.wgu with zero := img.calibratedZero } }

end

theorem orElse_eq_none {α : Type} {a : Option α} {f : Unit → Option α} (h : a.orElse f = none) :
    a = none ∧ f () = none := by
  cases a with
  | none => exact ⟨rfl, h⟩
  | some _ => simp [Option.orElse] at h

/-- A draft that START validates has its runway in range (R213, R215). -/
theorem imageFail_runway {d : Draft} (h : imageFail d = none) : 0 ≤ (buildImage d).runway := by
  have ranges : firstOutside d .range (headParams ++ weighParams) = none := by
    obtain ⟨_, h⟩ := orElse_eq_none h
    obtain ⟨_, h⟩ := orElse_eq_none h
    exact (orElse_eq_none h).1
  have inside : inRange (draftVal d .runwayLength) (draftVal d .spanLength) .runwayLength (draftVal d .runwayLength)
      = true := by
    simp only [firstOutside, Option.map_eq_none_iff, List.find?_eq_none] at ranges
    simpa using ranges .runwayLength (by decide)
  obtain ⟨low, _⟩ := of_decide_eq_true inside
  exact le_trans (by decide) low

/-! ## The requests -/

section
variable {s : State} {tag : ReqTag}

theorem exec_configure {es : List ConfigEntry} (h : TakesNow s tag (.configure es)) (hn : s.rlc.nodeState = .config) :
    exec .configure s = .next (State.finish (serveConfigure (dropRequest s) tag (.configure es))) :=
  request_takesNow h (hn ▸ rfl) _

theorem exec_start (h : TakesNow s tag .start) (hn : s.rlc.nodeState = .config) :
    exec .start s = .next (State.finish (serveStart (dropRequest s) tag .start)) :=
  request_takesNow h (hn ▸ rfl) _

/-- START with a valid image: the image taken, then JOINING entered. -/
theorem exec_start_valid (h : TakesNow s tag .start) (hn : s.rlc.nodeState = .config)
    (valid : imageFail s.cpt.draft = none) : exec .start s = .next (State.finish (enterJoining
      (takeImage (afterAnswer s tag .start .ok .none .none) (buildImage s.cpt.draft)))) := by
  rw [exec_start h hn, serveStart, dropRequest_cpt]
  simp only [valid, answer_dropRequest]

end

/-- What the hand-ons leave of the crane port, but for its output queue. -/
theorem HandOnFrame.cpt {s t : State} (h : HandOnFrame s t) :
    t.cpt = { s.cpt with out := t.cpt.out, lost := t.cpt.lost, dropped := t.cpt.dropped } := by
  obtain ⟨_, _, _, _, _, _, _, _, _, h, _⟩ := h
  exact h

theorem HandOnFrame.zero {s t : State} (h : HandOnFrame s t) : t.wgu.zero = s.wgu.zero := by
  obtain ⟨_, _, _, _, _, _, _, h, _⟩ := h
  rw [h]

theorem HandOnFrame.sample {s t : State} (h : HandOnFrame s t) : t.sample = s.sample := by
  rw [State.sample, h.cpt]
  rfl

section
variable (s : State) (img : Image)

/-- JOINING entered with an image, and the hand-ons behind it. -/
def started : State := State.finish (enterJoining (takeImage s img))

/-- What the image taken leaves as it was, and what it sets (R216). -/
theorem started_frame : HandOnFrame
    { imageTaken s img with ptb := (recheckPeers (imageTaken s img) img).ptb, rlc := joiningRlc (takeImage s img) }
    (started s img) := by
  refine .trans ?_ ((enterJoining_frame _).trans (finish_frame _))
  obtain ⟨h1, h2, h3, h4, h5, h6, _, h8, h9, h10, h11, h12⟩ := recheckPeers_frame (imageTaken s img) img
  exact ⟨h1, h2, h3, h4, h5, h6, rfl, h8, h9, h10, h11, h12⟩

theorem started_port : portView (started s img).cpt = portView s.cpt := by
  rw [started, (finish_frame _).port, enterJoining_port, takeImage_port]

theorem started_permits : (started s img).epu.record.permits = zeroPermits .state := by
  have node : (enterJoining (takeImage s img)).rlc.nodeState = .joining := by
    rw [(enterJoining_frame (takeImage s img)).rlc]
    rfl
  exact (finish_moves _).permits (by rw [node]; decide) (enterJoining_permits _)

/-- The JOIN stands at the head of the queue, with the position held. -/
theorem started_queue : (started s img).rlc.queue.head?
    = some (.fixed (.join (1 + (takeImage s img).drawn % 65535) (started s img).sample.x)) := by
  have held : (started s img).sample.x = (takeImage s img).sample.x := by
    have same : (started s img).sample = (takeImage s img).sample :=
      ((enterJoining_frame (takeImage s img)).trans (finish_frame _)).sample
    rw [same]
  obtain ⟨rest, h⟩ := finish_queue (enterJoining (takeImage s img))
  rw [started, ← h, enterJoining_queue, ← started, held]
  rfl

end

/-- Settles O50: CONFIGURE by its entries, START by its validation. -/
theorem configureAndStart : Obligations.ConfigureAndStart := by
  refine ⟨fun es => configFail_eq_none, fun s tag es h hn => ⟨fun why hw => ?_, fun good => ?_⟩,
    fun s tag h hn => ⟨fun p c bad => ?_, fun valid => ?_⟩⟩
  · exact .of_answer (exec_configure h hn) (by simp only [serveConfigure, hw])
  · obtain ⟨_, _, _, nodup⟩ := configFail_eq_none.mp good
    refine ⟨applyEntries s.cpt.draft es, .of_exec ?_, draftGet_applyEntries nodup _,
      fun p other => draftGet_applyEntries_other other _⟩
    rw [exec_configure h hn]
    simp only [serveConfigure, good, answer_dropRequest]
    rfl
  · exact .of_answer (exec_start h hn) (by simp only [serveStart, dropRequest_cpt, bad])
  · intro img
    have frame := started_frame (afterAnswer s tag .start .ok .none .none) img
    have port := started_port (afterAnswer s tag .start .ok .none .none) img
    obtain ⟨cpt, rlc⟩ := And.intro frame.cpt frame.rlc
    have now : (takeImage (afterAnswer s tag .start .ok .none .none) img).now = s.now := (recheckPeers_frame _ img).now
    simp only [portView, Prod.mk.injEq] at port
    refine ⟨_, _, exec_start_valid h hn valid, port.2.2.trans ?_, ?_, ?_, ?_, ?_, ?_, ?_, ?_,
      started_queue _ _, ?_, ?_, frame.zero, started_permits _ _, fun p held => ?_, fun peers => ?_⟩
    · simp [afterAnswer, responses, responseOf]
    · exact congrArg Rlc.nodeState rlc
    · exact congrArg Rlc.pattern rlc
    · omega
    · omega
    · exact (congrArg Rlc.joinDue rlc).trans (by rw [← now]; rfl)
    · exact (congrArg Rlc.joinEnd rlc).trans (by rw [← now]; rfl)
    · exact congrArg Rlc.joinConfirmed rlc
    · exact congrArg Cpt.image cpt
    · exact congrArg Smu.slots frame.smu
    · refine (congrArg Cpt.held cpt).trans ?_
      change s.cpt.held.map _ = _
      rw [held]
      rfl
    · obtain ⟨_, sorted, _⟩ := peers
      have table : (started (afterAnswer s tag .start .ok .none .none) img).ptb
          = (recheckPeers (imageTaken (afterAnswer s tag .start .ok .none .none) img) img).ptb := frame.ptb
      exact fun p hp => recheckPeers_fit (imageFail_runway valid) (by exact sorted) p (table ▸ hp)

end Sys2Proof.Machine
end

section
/-! RESTART, PARK and UNPARK: what is discarded, the claims removed and the windows opened, and the hand-ons that find
nothing to do. -/

namespace Sys2Proof.Machine

/-! ## Hand-ons that find nothing to do -/

/-- No order is active, no truck request is pending, and the node is not in RUNNING. -/
structure AtRest (s : State) : Prop where
  order : s.moc.active = none
  requests : ∀ bay, s.tbu.requests.get bay = none
  node : s.rlc.nodeState ≠ .running

section
variable {s : State}

/-- A hand-on that reaches a node at rest changes nothing: only a HELD claim of a bay would still be looked at. -/
theorem AtRest.serveWork (h : AtRest s) {w : Work} (hc : (∃ bay, w = .truckClaim bay) → s.clu.claims = []) :
    serveWork s w = s := by
  have order := h.order
  cases w with
  | orderClaim id t st left => simp only [Machine.serveWork, orderClaimChanged, order]
  | truckClaim bay =>
    have no_claims := hc ⟨bay, rfl⟩
    have none_held (t : Target) : (claimState s t == some .held) = false := by
      simp [claimState, findClaim, no_claims]
    simp only [Machine.serveWork, bayClaimChanged, h.requests, none_held, Bool.false_eq_true, if_false]
    repeat' split
    all_goals rfl
  | claimRemoved => simp only [Machine.serveWork, askAgain, order]
  | slotChanged slot => simp only [Machine.serveWork, orderSlotChanged, order]
  | bayChanged bay => simp only [Machine.serveWork, orderBayChanged, order]
  | staleEnded bay =>
    simp only [Machine.serveWork, staleEnded, h.requests]
    repeat' split
    all_goals simp_all
  | weighResult r at_lift_off => simp only [Machine.serveWork, takeResult, order]
  | activate =>
    simp only [Machine.serveWork, activate, order, if_pos h.node]
    split <;> rfl
  | decide => simp only [Machine.serveWork, settleDest, order]
  | progress => simp only [Machine.serveWork, progress, order]
  | phaseChanged => simp only [Machine.serveWork, resettleSlots, if_neg h.node]

/-- The hand-ons of a node at rest are dropped, and nothing else happens. -/
theorem AtRest.runWork (k : Nat) (h : AtRest s) (hc : (∃ bay, .truckClaim bay ∈ s.work) → s.clu.claims = []) :
    runWork k s = { s with work := s.work.drop k } := by
  induction k generalizing s with
  | zero => rfl
  | succ k ih =>
    cases hw : s.work with
    | nil =>
      simp only [Machine.runWork, hw, List.drop_nil]
      rw [← hw]
    | cons w rest =>
      have served : Machine.serveWork { s with work := rest } w = { s with work := rest } :=
        AtRest.serveWork (s := { s with work := rest }) ⟨h.order, h.requests, h.node⟩
          fun ⟨bay, e⟩ => hc ⟨bay, by simp [hw, e]⟩
      simp only [Machine.runWork, hw, served]
      exact ih ⟨h.order, h.requests, h.node⟩ fun ⟨bay, m⟩ => hc ⟨bay, hw ▸ List.mem_cons_of_mem _ m⟩

theorem AtRest.finish (h : AtRest s) (hc : (∃ bay, .truckClaim bay ∈ s.work) → s.clu.claims = []) :
    State.finish s = { s with work := s.work.drop 512 } := h.runWork 512 hc

end

/-! ## Claims removed as PARKED is entered (R21, R86, R93) -/

/-- A release window of a bay as it opens (R86). -/
def releaseOpened : Option TruckWindow := some { release := true, left := 5 }

section
variable {s : State}

@[simp] theorem endConflict_claims (s : State) (z : Nat) : (endConflict s z).clu.claims = s.clu.claims := by
  unfold endConflict
  split
  · rw [compute_clu]
    rfl
  · rfl

@[simp] theorem endConflict_rlc (s : State) (z : Nat) : (endConflict s z).rlc = s.rlc := by
  unfold endConflict
  split
  · rw [compute_rlc]
    rfl
  · rfl

@[simp] theorem leaveHeld_claims (s : State) (t : Target) : (leaveHeld s t).clu.claims = s.clu.claims := by
  unfold leaveHeld
  cases ownBay s t <;> cases t <;> simp [State.openReleaseWindow]

/-- A bay's release window stands open where the bay of a target leaves HELD, or where it stood so already. -/
theorem leaveHeld_releases {t : Target} {bay : Nat}
    (h : ownBay s t = some bay ∨ s.rlc.truckWin.get bay = releaseOpened) :
    (leaveHeld s t).rlc.truckWin.get bay = releaseOpened := by
  have opens (b : Nat) (h : b = bay ∨ s.rlc.truckWin.get bay = releaseOpened) :
      (s.openReleaseWindow b).rlc.truckWin.get bay = releaseOpened := by
    rcases perBay_get_set s.rlc.truckWin b bay releaseOpened with ⟨opened, _⟩ | ⟨same, other⟩
    · exact opened
    · exact same.trans (h.resolve_left other)
  unfold leaveHeld
  cases hb : ownBay s t with
  | none =>
    have old := h.resolve_left (by simp [hb])
    cases t <;> simpa using old
  | some b =>
    have window := opens b (h.imp_left fun e => Option.some.inj (hb.symm.trans e))
    cases t <;> simpa using window

theorem removeClaim_claims (s : State) (c : OwnClaim) :
    (removeClaim s c).clu.claims = s.clu.claims.filter fun d => d.target != c.target := by
  unfold removeClaim
  dsimp only
  split_ifs <;> simp [dropClaim]

theorem removeClaim_releases {c : OwnClaim} {bay : Nat}
    (h : c.state = .held ∧ ownBay s c.target = some bay ∨ s.rlc.truckWin.get bay = releaseOpened) :
    (removeClaim s c).rlc.truckWin.get bay = releaseOpened := by
  have offered : ∀ t : State, t.rlc.truckWin = s.rlc.truckWin → t.cpt = s.cpt →
      (if c.state = .held then leaveHeld t c.target else t).rlc.truckWin.get bay = releaseOpened := by
    intro t win cpt
    have bays : ownBay t c.target = ownBay s c.target := by rw [ownBay, cpt, ownBay]
    by_cases held : c.state = .held
    · rw [if_pos held]
      exact leaveHeld_releases (by rw [bays, win]; exact h.imp_left And.right)
    · rw [if_neg held, win]
      exact h.resolve_left fun k => held k.1
  unfold removeClaim
  dsimp only
  rw [hand_rlc, emit_rlc, compute_rlc]
  refine offered _ ?_ ?_
  · split
    · rfl
    · exact offer_truckWin _ _
  · split
    · rfl
    · exact offer_cpt _ _

theorem Moves.image {b : Bool} {s t : State} (h : Moves b s t) : t.cpt.image = s.cpt.image :=
  h.same (fun s => s.cpt.image) fun s t m => by
    cases m with
    | emit _ e => exact emit_image s e
    | target _ o p x y z => exact (congrArg Cpt.image (Move.target s o p x y z).frame.cpt).trans rfl
    | compute => exact (congrArg Cpt.image (Move.compute s).frame.cpt).trans rfl
    | offer _ i => rw [offer_cpt]
    | notice => rw [State.issueNotice, offer_cpt]
    | changeWindow _ bay => rw [State.openChangeWindow, offer_cpt]
    | _ => rfl

/-- What is left of a list of claims once each of them has been removed. -/
theorem foldl_removeClaim (l : List OwnClaim) (s : State) :
    let u := l.foldl removeClaim s
    (∀ c ∈ u.clu.claims, c ∈ s.clu.claims ∧ c ∉ l)
      ∧ ∀ bay,
        (∃ c ∈ l, c.state = .held ∧ ownBay s c.target = some bay) ∨ s.rlc.truckWin.get bay = releaseOpened →
        u.rlc.truckWin.get bay = releaseOpened := by
  induction l generalizing s with
  | nil => exact ⟨fun c hc => ⟨hc, List.not_mem_nil⟩, fun bay h => by simpa using h⟩
  | cons d l ih =>
    obtain ⟨left, opened⟩ := ih (removeClaim s d)
    have bays (t : Target) : ownBay (removeClaim s d) t = ownBay s t := by
      rw [ownBay, (removeClaim_moves (cmd := false) (.refl s) d).image, ownBay]
    refine ⟨fun c hc => ?_, fun bay h => opened bay ?_⟩
    · obtain ⟨old, not_in⟩ := left c hc
      rw [removeClaim_claims, List.mem_filter] at old
      obtain ⟨old, other⟩ := old
      refine ⟨old, fun hc => (List.mem_cons.mp hc).elim (fun e => ?_) not_in⟩
      simp [e] at other
    · rcases h with ⟨c, hc, held, at_bay⟩ | window
      · rcases List.mem_cons.mp hc with rfl | hc
        · exact .inr (removeClaim_releases (.inl ⟨held, at_bay⟩))
        · exact .inl ⟨c, hc, held, (bays _).trans at_bay⟩
      · exact .inr (removeClaim_releases (.inr window))

theorem endConflicts_claims (s : State) : (endConflicts s).clu.claims = s.clu.claims := by
  have fold : ∀ (l : List Nat) (t : State), (l.foldl endConflict t).clu.claims = t.clu.claims := by
    intro l
    induction l with
    | nil => exact fun _ => rfl
    | cons z l ih => exact fun t => (ih _).trans (endConflict_claims t z)
  exact fold _ s

/-- No claim is left, and each HELD claim of a bay opened that bay's release window (R21, R86). -/
theorem parkClaims_spec (s : State) : (parkClaims s).clu.claims = []
    ∧ ∀ c ∈ s.clu.claims, c.state = .held → ∀ bay, ownBay s c.target = some bay →
      (parkClaims s).rlc.truckWin.get bay = releaseOpened := by
  obtain ⟨left, opened⟩ := foldl_removeClaim (endConflicts s).clu.claims (endConflicts s)
  have image := (endConflicts_moves (cmd := false) (.refl s)).image
  refine ⟨List.eq_nil_iff_forall_not_mem.mpr fun c hc => absurd (left c hc).1 (left c hc).2,
    fun c hc held bay at_bay => opened bay (.inl ⟨c, ?_, held, ?_⟩)⟩
  · rw [endConflicts_claims]
    exact hc
  · rw [ownBay, image]
    exact at_bay

end

end Sys2Proof.Machine
end

section
/-! Settles O51 (`RestartParkAndUnpark`). -/

namespace Sys2Proof.Machine

section
variable {s : State}

/-! ## Claims outside RUNNING (R93) -/

/-- A claim without its holders: all of it that a release outside RUNNING keeps (R93). -/
def withoutHolders (c : OwnClaim) : OwnClaim := { c with holders := [] }

/-- Claims keep all but their holders and a bay may lose its request; at most `n` hand-ons are added, and none of them
about a claim of a bay. -/
structure Freed (n : Nat) (s t : State) : Prop where
  rlc : t.rlc = s.rlc
  claims : t.clu.claims.map withoutHolders = s.clu.claims.map withoutHolders
  conflicts : s.clu.conflicts = [] → t.clu.conflicts = []
  doubleHeld : t.clu.doubleHeld = s.clu.doubleHeld
  trucks : t.tbu = { s.tbu with requests := t.tbu.requests }
  requests : ∀ bay, s.tbu.requests.get bay = none → t.tbu.requests.get bay = none
  work : ∃ l, t.work = s.work ++ l ∧ l.length ≤ n ∧ ∀ w ∈ l, w = .claimRemoved ∨ w = .activate

theorem Freed.refl (s : State) : Freed 0 s s :=
  ⟨rfl, rfl, id, rfl, rfl, fun _ => id, [], by simp⟩

theorem Freed.trans {n m : Nat} {t u : State} (h : Freed n s t) (k : Freed m t u) : Freed (n + m) s u := by
  obtain ⟨l, hl, len, kind⟩ := h.work
  obtain ⟨l', hl', len', kind'⟩ := k.work
  refine ⟨k.rlc.trans h.rlc, k.claims.trans h.claims, k.conflicts ∘ h.conflicts, k.doubleHeld.trans h.doubleHeld, ?_,
    fun bay => k.requests bay ∘ h.requests bay, l ++ l', ?_, ?_, ?_⟩
  · rw [k.trucks, h.trucks]
  · rw [hl', hl, List.append_assoc]
  · rw [List.length_append]
    omega
  · exact fun w hw => (List.mem_append.mp hw).elim (kind w) (kind' w)

theorem Freed.node {n : Nat} {t : State} (h : Freed n s t) (hn : s.rlc.nodeState ≠ .running) :
    t.rlc.nodeState ≠ .running := h.rlc ▸ hn

/-- Outside RUNNING a release only takes the holder from the claim (R93). -/
theorem releaseClaim_freed (t : Target) (k : Holder) (hn : s.rlc.nodeState ≠ .running) :
    Freed 1 s (releaseClaim s t k) := by
  have unheld (l : List OwnClaim) (rest : List Holder) : (l.map fun c =>
      if c.target == t then { c with holders := rest } else c).map withoutHolders = l.map withoutHolders := by
    rw [List.map_map]
    refine List.map_congr_left fun c _ => ?_
    dsimp only [Function.comp_apply]
    split <;> rfl
  have idle (u : State) (h : u = s) : Freed 1 s u := h ▸ ⟨rfl, rfl, id, rfl, rfl, fun _ => id, [], by simp⟩
  unfold releaseClaim
  split
  · exact idle _ rfl
  split
  · exact idle _ rfl
  dsimp only
  rw [if_neg fun h => hn h.1]
  unfold heldOn
  split
  · exact ⟨rfl, unheld _ _, id, rfl, rfl, fun _ => id, [.claimRemoved], rfl, by simp, by simp⟩
  · exact ⟨rfl, unheld _ _, id, rfl, rfl, fun _ => id, [], by simp [putClaim], by simp, by simp⟩

theorem releaseClaim_moc_outside (t : Target) (k : Holder) (hn : s.rlc.nodeState ≠ .running) :
    (releaseClaim s t k).moc = s.moc := by
  unfold releaseClaim
  split
  · rfl
  split
  · rfl
  dsimp only
  rw [if_neg fun h => hn h.1]
  unfold heldOn
  split <;> rfl

/-! ## Truck requests withdrawn outside RUNNING (R161) -/

theorem releaseBay_freed (bay : Nat) (hn : s.rlc.nodeState ≠ .running) :
    Freed 1 s (releaseBay s bay) ∧ (releaseBay s bay).moc = s.moc := by
  unfold releaseBay
  split
  · exact ⟨⟨rfl, rfl, id, rfl, rfl, fun _ => id, [], by simp⟩, rfl⟩
  · exact ⟨releaseClaim_freed _ _ hn, releaseClaim_moc_outside _ _ hn⟩

theorem dropTruckReq_freed (s : State) (bay : Nat) :
    Freed 0 s (dropTruckReq s bay) ∧ (dropTruckReq s bay).tbu.requests.get bay = none := by
  have gone (b : Nat) := perBay_get_set s.tbu.requests bay b none
  refine ⟨⟨rfl, rfl, id, rfl, rfl, fun b hb => ?_, [], by simp⟩, ?_⟩
  · rcases gone b with ⟨e, _⟩ | ⟨e, _⟩
    · exact e
    · exact e.trans hb
  · rcases gone bay with ⟨e, _⟩ | ⟨_, ne⟩
    · exact e
    · exact absurd rfl ne

theorem withdrawTruckReq_freed (bay : Nat) (why : TruckFail) (hn : s.rlc.nodeState ≠ .running) :
    Freed 1 s (withdrawTruckReq s bay why) ∧ (withdrawTruckReq s bay why).moc = s.moc
      ∧ (withdrawTruckReq s bay why).tbu.requests.get bay = none := by
  unfold withdrawTruckReq
  split
  · exact ⟨⟨rfl, rfl, id, rfl, rfl, fun _ => id, [], by simp⟩, rfl, ‹_›⟩
  · obtain ⟨dropped, gone⟩ := dropTruckReq_freed s bay
    obtain ⟨released, moc⟩ := releaseBay_freed (s := dropTruckReq s bay) bay hn
    have told : Freed 0 (releaseBay (dropTruckReq s bay) bay) (failTruckReq s bay why) :=
      ⟨rfl, rfl, id, rfl, rfl, fun _ => id, [], by simp [failTruckReq]⟩
    have freed := (dropped.trans released).trans told
    exact ⟨freed, moc, (released.trans told).requests bay gone⟩

theorem withdrawTruckReqs_freed (why : TruckFail) (hn : s.rlc.nodeState ≠ .running) :
    Freed 4 s (withdrawTruckReqs s why) ∧ (withdrawTruckReqs s why).moc = s.moc
      ∧ ∀ bay, (withdrawTruckReqs s why).tbu.requests.get bay = none := by
  obtain ⟨w1, m1, n1⟩ := withdrawTruckReq_freed 1 why hn
  obtain ⟨w2, m2, n2⟩ := withdrawTruckReq_freed 2 why (w1.node hn)
  obtain ⟨w3, m3, n3⟩ := withdrawTruckReq_freed 3 why (w2.node (w1.node hn))
  obtain ⟨w4, m4, n4⟩ := withdrawTruckReq_freed 4 why (w3.node (w2.node (w1.node hn)))
  refine ⟨((w1.trans w2).trans w3).trans w4, m4.trans (m3.trans (m2.trans m1)), fun bay => ?_⟩
  match bay with
  | 1 => exact w4.requests 1 (w3.requests 1 (w2.requests 1 n1))
  | 2 => exact w4.requests 2 (w3.requests 2 n2)
  | 3 => exact w4.requests 3 n3
  | 0 | _ + 4 => exact n4

/-! ## PARKED entered (R21) -/

@[simp] theorem endConflict_moc (s : State) (z : Nat) : (endConflict s z).moc = s.moc := by
  unfold endConflict
  split
  · rw [compute_moc]
    rfl
  · rfl

@[simp] theorem leaveHeld_moc (s : State) (t : Target) : (leaveHeld s t).moc = s.moc := by
  unfold leaveHeld
  cases ownBay s t <;> cases t <;> simp [State.openReleaseWindow]

@[simp] theorem removeClaim_moc (s : State) (c : OwnClaim) : (removeClaim s c).moc = s.moc := by
  unfold removeClaim
  dsimp only
  split_ifs <;> simp [dropClaim]

theorem endConflicts_moc (s : State) : (endConflicts s).moc = s.moc := by
  have fold : ∀ (l : List Nat) (t : State), (l.foldl endConflict t).moc = t.moc := by
    intro l
    induction l with
    | nil => exact fun _ => rfl
    | cons z l ih => exact fun t => (ih _).trans (endConflict_moc t z)
  exact fold _ s

theorem parkClaims_moc (s : State) : (parkClaims s).moc = s.moc := by
  have fold : ∀ (l : List OwnClaim) (t : State), (l.foldl removeClaim t).moc = t.moc := by
    intro l
    induction l with
    | nil => exact fun _ => rfl
    | cons c l ih => exact fun t => (ih _).trans (removeClaim_moc t c)
  exact (fold _ _).trans (endConflicts_moc s)

/-- PARKED entered, with only its BEACON still to be queued. -/
def nowParked (s : State) : State := withdrawTruckReqs (parkClaims (setNode s .parked .none)) .nodeParked

theorem enterParked_eq (s : State) : enterParked s = (nowParked s).queueBeacon := rfl

theorem nowParked_moves (s : State) : Moves false { s with rlc.nodeState := .parked } (nowParked s) :=
  withdrawTruckReqs_moves (parkClaims_moves (setNode_moves _ _ _)) _

/-- What PARKED leaves: no claims and no truck requests, the permits at 0, and the release windows open. -/
structure Parked (s t : State) : Prop where
  claims : t.clu.claims = []
  requests : ∀ bay, t.tbu.requests.get bay = none
  permits : t.epu.record.permits = zeroPermits .state
  moc : t.moc = s.moc
  windows : ∀ c ∈ s.clu.claims, c.state = .held → ∀ bay, ownBay s c.target = some bay →
    t.rlc.truckWin.get bay = releaseOpened

theorem nowParked_parked (s : State) : Parked s (nowParked s) := by
  have node : (parkClaims (setNode s .parked .none)).rlc.nodeState = .parked :=
    (parkClaims_moves (setNode_moves s .parked .none)).nodeState
  obtain ⟨none_left, opened⟩ := parkClaims_spec (setNode s .parked .none)
  obtain ⟨withdrawn, moc, none_pending⟩ := withdrawTruckReqs_freed (s := parkClaims (setNode s .parked .none))
    .nodeParked (by simp [node])
  have permits : (nowParked s).epu.record.permits = zeroPermits .state :=
    (withdrawTruckReqs_moves (parkClaims_moves (cmd := false) (.refl (setNode s .parked .none))) _).permits
      (by simp [(setNode_moves s .parked .none).nodeState]) (setNode_permits (by decide) (by decide) _ _)
  have claims_left := withdrawn.claims
  rw [none_left, List.map_nil, List.map_eq_nil_iff] at claims_left
  refine ⟨claims_left, none_pending, permits, ?_, fun c hc held bay at_bay => ?_⟩
  · exact moc.trans ((parkClaims_moc _).trans (by simp [setNode]))
  have image : (setNode s .parked .none).cpt.image = s.cpt.image := (setNode_moves s .parked .none).image
  have claims : (setNode s .parked .none).clu.claims = s.clu.claims := by simp [setNode]
  unfold nowParked
  rw [withdrawn.rlc]
  exact opened c (claims ▸ hc) held bay (by rw [ownBay, image]; exact at_bay)

theorem enterParked_frame (s : State) :
    HandOnFrame { s with rlc := { s.rlc with
      nodeState := .parked, beaconDue := some (s.now + 1000), notices := (enterParked s).rlc.notices } } (enterParked s) := by
  have parked := (nowParked_moves s).frame
  obtain ⟨d, due, _, slow⟩ := startInterval_due (nowParked s)
  have node : (nowParked s).rlc.nodeState = .parked := (nowParked_moves s).nodeState
  have due : (enterParked s).rlc.beaconDue = some (s.now + 1000) := by
    have now : (nowParked s).now = s.now := parked.now
    rw [enterParked_eq, queueBeacon_beaconDue, due, slow (by simp [node]) (by simp [node]), now]
  have framed := parked.lined (queueBeacon_lined (nowParked s))
  rw [← enterParked_eq, due] at framed
  exact framed

/-- What stands once the BEACON of PARKED is queued and the hand-ons are served; each window has lost one send (R13). -/
theorem finish_enterParked (h : s.moc.active = none) :
    let u := State.finish (enterParked s)
    u.clu.claims = [] ∧ u.epu.record.permits = zeroPermits .state ∧ (∀ bay, u.tbu.requests.get bay = none)
      ∧ ∀ c ∈ s.clu.claims, c.state = .held → ∀ bay, 1 ≤ bay → bay ≤ 4 → ownBay s c.target = some bay →
        ∃ k, u.rlc.truckWin.get bay = some { release := true, left := k } := by
  have parked := nowParked_parked s
  have node : (nowParked s).rlc.nodeState = .parked := (nowParked_moves s).nodeState
  have lined : Lined (nowParked s) (enterParked s) := queueBeacon_lined _
  have clu : (enterParked s).clu = (nowParked s).clu := by rw [lined]
  have epu : (enterParked s).epu = (nowParked s).epu := by rw [lined]
  have moc : (enterParked s).moc = (nowParked s).moc := by rw [lined]
  have state : (enterParked s).rlc.nodeState = .parked := by
    rw [lined]
    exact node
  have rest : AtRest (enterParked s) :=
    ⟨by rw [moc, parked.moc, h], fun bay => lined.tbu ▸ parked.requests bay, by simp [state]⟩
  rw [rest.finish fun _ => clu ▸ parked.claims]
  refine ⟨clu ▸ parked.claims, epu ▸ parked.permits, rest.requests, fun c hc held bay h1 h4 at_bay => ⟨4, ?_⟩⟩
  change (nowParked s).queueBeacon.rlc.truckWin.get bay = _
  rw [queueBeacon_truckWin _ h1 h4, parked.windows c hc held bay at_bay]
  rfl

end

/-! ## RESUMING entered (R23) -/

section
variable (s : State)

theorem enterResuming_eq : enterResuming s = { (setNode s .resuming .none).queueBeacon with
    rlc := { (setNode s .resuming .none).queueBeacon.rlc with resumeEnd := some (s.now + 300) } } := by
  have now : (setNode s .resuming .none).queueBeacon.now = s.now :=
    (queueBeacon_lined _).now.trans (setNode_moves s .resuming .none).frame.now
  rw [← now]
  rfl

theorem enterResuming_frame : ∃ d, s.now + 100 ≤ d ∧ d ≤ s.now + 120
    ∧ HandOnFrame { s with rlc := { s.rlc with nodeState := .resuming, resumeEnd := some (s.now + 300),
                                               beaconDue := some d, notices := (enterResuming s).rlc.notices } }
        (enterResuming s) := by
  have entered := (setNode_moves s .resuming .none).frame
  have node : (setNode s .resuming .none).rlc.nodeState = .resuming := (setNode_moves s .resuming .none).nodeState
  obtain ⟨d, due, fast, _⟩ := startInterval_due (setNode s .resuming .none)
  obtain ⟨low, high⟩ := fast (.inr node)
  have now : (setNode s .resuming .none).now = s.now := entered.now
  have framed := entered.lined (queueBeacon_lined (setNode s .resuming .none))
  rw [queueBeacon_beaconDue, due] at framed
  refine ⟨d, now ▸ low, now ▸ high, ?_⟩
  rw [enterResuming_eq]
  exact framed.with_rlc (fun r => { r with resumeEnd := some (s.now + 300) }) fun _ _ _ _ _ _ _ => rfl

end

/-! ## RESTART (R25) -/

/-- The blocks of claims, weighing, trucks and orders, and the hand-ons, stand as they stood. -/
structure SameBlocks (s t : State) : Prop where
  clu : t.clu = s.clu
  wgu : t.wgu = s.wgu
  tbu : t.tbu = s.tbu
  moc : t.moc = s.moc
  work : t.work = s.work

section
variable {s t u : State}

theorem SameBlocks.trans (h : SameBlocks s t) (k : SameBlocks t u) : SameBlocks s u :=
  ⟨k.clu.trans h.clu, k.wgu.trans h.wgu, k.tbu.trans h.tbu, k.moc.trans h.moc, k.work.trans h.work⟩

theorem setNode_blocks (s : State) (st : NodeState) (c : FaultCause) : SameBlocks s (setNode s st c) := by
  constructor <;> simp [setNode]

theorem enterConfig_blocks (s : State) : SameBlocks s (enterConfig s) :=
  SameBlocks.trans (t := s.clearQueue) ⟨rfl, rfl, rfl, rfl, rfl⟩ (setNode_blocks _ _ _)

theorem enterJoining_blocks (s : State) : SameBlocks s (enterJoining s) := by
  rw [enterJoining_eq]
  have entered : SameBlocks s (nowJoining s) := by
    constructor <;> simp [nowJoining, setNode, State.clearQueue]
  exact entered.trans ⟨offer_clu _ _, offer_wgu _ _, offer_tbu _ _, offer_moc _ _, offer_work _ _⟩

/-- Without conflicts, an active order and truck requests, an entry to FAULT ends nothing. -/
theorem failBlocks_eq (h1 : s.clu.conflicts = []) (h2 : s.moc.active = none) (h3 : s.tbu.requests = PerBay.all none) :
    failBlocks s = s := by
  have none_ended : endOrder (endConflicts s) (.failed .nodeFault) = s := by
    simp only [endConflicts, h1, List.foldl_nil, endOrder, h2]
  have none_pending : ∀ bay, withdrawTruckReq s bay .nodeFault = s := by
    intro bay
    have empty : s.tbu.requests.get bay = none := by
      rw [h3]
      match bay with
      | 0 | 1 | 2 | 3 | _ + 4 => rfl
    simp only [withdrawTruckReq, empty]
  rw [failBlocks, none_ended]
  simp only [withdrawTruckReqs, List.foldl_cons, List.foldl_nil, none_pending]

@[simp] theorem keepBeacon_txDropped (s : State) : s.keepBeacon.rlc.txDropped = s.rlc.txDropped := by
  unfold State.keepBeacon
  dsimp only
  split
  · rfl
  · rw [beginAttempt_frame]

theorem keepBeacon_epu (s : State) : s.keepBeacon.epu = s.epu := by
  unfold State.keepBeacon
  dsimp only
  split
  · rfl
  · rw [beginAttempt_frame]

theorem keepBeacon_blocks (s : State) : SameBlocks s s.keepBeacon := by
  unfold State.keepBeacon
  dsimp only
  split
  · exact ⟨rfl, rfl, rfl, rfl, rfl⟩
  · rw [beginAttempt_frame]
    exact ⟨rfl, rfl, rfl, rfl, rfl⟩

/-- A node state entered from `s` with nothing else done than what its RLC `r` says. -/
structure Entered (s : State) (r : Rlc) (u : State) : Prop where
  frame : HandOnFrame { s with rlc := r } u
  blocks : SameBlocks s u
  permits : u.epu.record.permits = zeroPermits .state
  dropped : u.rlc.txDropped = s.rlc.txDropped

theorem enterConfig_entered (s : State) : Entered s { s.rlc with nodeState := .config } (enterConfig s) :=
  ⟨enterConfig_frame s, enterConfig_blocks s, setNode_permits (by decide) (by decide) _ _, by simp [enterConfig, setNode, State.clearQueue]⟩

theorem enterJoining_entered (s : State) : Entered s (joiningRlc s) (enterJoining s) := by
  refine ⟨enterJoining_frame s, enterJoining_blocks s, enterJoining_permits s, ?_⟩
  have empty : (nowJoining s).rlc.queue = [] := setNode_queue _ _ _
  rw [enterJoining_eq, (offer_joins _ _ (by simp [isRefilled]) (by simp [empty])).2]
  simp [nowJoining, setNode, joiningRlc]

theorem enterFault_entered (h1 : s.clu.conflicts = []) (h2 : s.moc.active = none)
    (h3 : s.tbu.requests = PerBay.all none) :
    Entered s { faultRlc s.rlc .noNumber with beaconDue := none, profileDue := none } (enterFault s .noNumber) := by
  have blocks := setNode_blocks { stopTimers s with rlc.lastFault := .noNumber } .fault .noNumber
  have ended : faulted s .noNumber
      = State.keepBeacon (setNode { stopTimers s with rlc.lastFault := .noNumber } .fault .noNumber) := by
    rw [faulted, failBlocks_eq (blocks.clu ▸ h1) (blocks.moc ▸ h2) (blocks.tbu ▸ h3)]
  have entered : enterFault s .noNumber = { faulted s .noNumber with
      rlc := { (faulted s .noNumber).rlc with beaconDue := none, profileDue := none } } := by
    rw [enterFault_eq, faultFrames, if_neg (by decide)]
  have same : SameBlocks s (faulted s .noNumber) := by
    rw [ended]
    refine .trans ?_ (blocks.trans (keepBeacon_blocks _))
    exact ⟨rfl, rfl, rfl, rfl, rfl⟩
  refine ⟨enterFault_noNumber_frame s, entered ▸ same.trans ⟨rfl, rfl, rfl, rfl, rfl⟩, ?_, ?_⟩
  · rw [entered, ended]
    dsimp only
    rw [keepBeacon_epu]
    exact setNode_permits (by decide) (by decide) _ _
  · rw [entered, ended]
    simp [setNode, stopTimers]

end

/-- The state of RESTART with all discarded and the straps read, before a node state is entered (R25). -/
def restarted (s : State) (t : Straps) : State := readStraps (discard (markUntracked s .restart)) t

section
variable (s : State) (t : Straps)

/-- The RLC after RESTART, with its straps read (R25). -/
def restrapped : Rlc := { restartRlc s.rlc with straps := some t, craneNo := strapNumber t }

theorem softReset_eq : softReset s t = (strapNumber t).elim (enterFault (restarted s t) .noNumber)
    fun _ => if s.cpt.image.isSome then enterJoining (restarted s t) else enterConfig (restarted s t) := by
  have image : (restarted s t).cpt.image = s.cpt.image := (markUntracked_moves (cmd := false) (.refl s) .restart).image
  unfold softReset
  rw [← image]
  cases strapNumber t <;> rfl

/-- What RESTART discards, of the blocks that hand-ons leave alone (R25). -/
theorem restarted_frame : HandOnFrame
    { s with rlc := restrapped s t, ptb := { peers := [], fullTold := false },
             wgu := { s.wgu with capture := none, session := none }, cpt := restartCpt s.cpt } (restarted s t) := by
  unfold restarted markUntracked
  split
  · exact ⟨rfl, rfl, rfl, rfl, rfl, rfl, rfl, rfl, .inl rfl, rfl, rfl, rfl⟩
  · obtain ⟨_, _, _, _, _, _, _, _, _, cpt, resp, stream⟩ := (Move.emit (b := false) s
      (.untrackedLoad .restart s.sample.x s.sample.y s.sample.z)).frame
    refine ⟨rfl, rfl, rfl, rfl, rfl, rfl, rfl, rfl, .inl rfl, ?_, resp, stream⟩
    change restartCpt (s.emit (.untrackedLoad .restart s.sample.x s.sample.y s.sample.z)).cpt = _
    rw [cpt]
    rfl

theorem restarted_blocks : SameBlocks
    { s with clu := { claims := [], conflicts := [], doubleHeld := [] },
             wgu := { s.wgu with capture := none, session := none },
             tbu := { s.tbu with required := PerBay.all 0, requests := PerBay.all none, limitTold := PerBay.all false },
             moc := { s.moc with active := none, waiting := [], ended := [],
                                 untracked := if s.wgu.loadClass = .empty then s.moc.untracked else some .restart } }
    (restarted s t) := by
  unfold restarted markUntracked
  split <;> exact ⟨rfl, rfl, rfl, rfl, rfl⟩

/-- What every way out of RESTART agrees on (R25). -/
theorem Entered.restart {r : Rlc} {u : State} (h : Entered (restarted s t) r u) (work : s.work = []) :
    State.finish u = u ∧ u.now = s.now ∧ u.pending = s.pending ∧ u.lcp = s.lcp ∧ u.smu = s.smu
      ∧ u.tbu.trucks = s.tbu.trucks
      ∧ u.cpt.image = s.cpt.image ∧ u.cpt.held = s.cpt.held ∧ u.cpt.stream = none
      ∧ u.ptb = { peers := [], fullTold := false } ∧ u.clu = { claims := [], conflicts := [], doubleHeld := [] }
      ∧ u.moc.active = none ∧ u.moc.waiting = [] ∧ u.moc.ended = []
      ∧ u.tbu.required = PerBay.all 0 ∧ u.tbu.requests = PerBay.all none ∧ u.tbu.limitTold = PerBay.all false
      ∧ u.wgu = { s.wgu with capture := none, session := none }
      ∧ u.moc.untracked = (if s.wgu.loadClass = .empty then s.moc.untracked else some .restart) := by
  have blocks := (restarted_blocks s t).trans h.blocks
  have base := restarted_frame s t
  obtain ⟨_, now, ptb, smu, lcp, pending, _, _, _, cpt, _, _⟩ := h.frame
  obtain ⟨_, now0, ptb0, smu0, lcp0, pending0, _, _, _, cpt0, _, _⟩ := base
  refine ⟨finish_of_work_nil (blocks.work.trans work), now.trans now0, pending.trans pending0, lcp.trans lcp0,
    smu.trans smu0, (congrArg Tbu.trucks blocks.tbu).trans rfl, ?_, ?_, ?_, ptb.trans ptb0, blocks.clu,
    congrArg Moc.active blocks.moc, congrArg Moc.waiting blocks.moc, congrArg Moc.ended blocks.moc,
    congrArg Tbu.required blocks.tbu, congrArg Tbu.requests blocks.tbu, congrArg Tbu.limitTold blocks.tbu, blocks.wgu,
    congrArg Moc.untracked blocks.moc⟩
  all_goals
    rw [cpt]
    dsimp only
    rw [cpt0]
    rfl

theorem restarted_rlc : (restarted s t).rlc = restrapped s t := by
  unfold restarted markUntracked
  split <;> rfl

/-- The RLC that RESTART ends in: FAULT without a number, else JOINING with an image and CONFIG without one (R25). -/
structure Restrapped (r : Rlc) : Prop where
  straps : r.straps = some t
  noticeSeq : r.noticeSeq = s.rlc.noticeSeq
  rxBad : r.rxBad = s.rlc.rxBad
  lastStop : r.lastStop = if s.rlc.nodeState = .fault then .restartFromFault else .restartRequest
  craneNo : r.craneNo = strapNumber t
  numbered : ∀ k, strapNumber t = some k → r.lastFault = s.rlc.lastFault
    ∧ (s.cpt.image = none → r.nodeState = .config)
    ∧ (s.cpt.image ≠ none → r.nodeState = .joining ∧ r.joinEnd = some (s.now + 1000))
  unnumbered : strapNumber t = none → r.nodeState = .fault ∧ r.lastFault = .noNumber

theorem softReset_entered : ∃ r, Entered (restarted s t) r (softReset s t) ∧ Restrapped s t r := by
  have blocks := restarted_blocks s t
  have rlc := restarted_rlc s t
  rw [softReset_eq]
  cases number : strapNumber t with
  | none =>
    refine ⟨_, enterFault_entered (congrArg Clu.conflicts blocks.clu) (congrArg Moc.active blocks.moc)
      (congrArg Tbu.requests blocks.tbu), ?_⟩
    rw [rlc]
    exact ⟨rfl, rfl, rfl, rfl, rfl, by simp [number], fun _ => ⟨rfl, rfl⟩⟩
  | some k =>
    rw [Option.elim_some]
    by_cases image : s.cpt.image = none
    · rw [image, if_neg (by simp)]
      refine ⟨_, enterConfig_entered _, ?_⟩
      rw [rlc]
      exact ⟨rfl, rfl, rfl, rfl, rfl, fun _ _ => ⟨rfl, fun _ => rfl, fun h => absurd image h⟩, by simp [number]⟩
    · rw [if_pos (Option.isSome_iff_ne_none.mpr image)]
      have now : (restarted s t).now = s.now := (restarted_frame s t).now
      refine ⟨_, enterJoining_entered _, ?_⟩
      rw [joiningRlc, rlc, now]
      exact ⟨rfl, rfl, rfl, rfl, rfl, fun _ _ => ⟨rfl, fun h => absurd h image, fun _ => ⟨rfl, rfl⟩⟩, by simp [number]⟩

/-- What RESTART leaves of the image under construction (R27, R217). -/
theorem Entered.draft {r : Rlc} {u : State} (h : Entered (restarted s t) r u) :
    u.cpt.draft = if s.cpt.image = none then [] else s.cpt.draft := by
  have base := (restarted_frame s t).cpt
  rw [h.frame.cpt]
  dsimp only
  rw [base]
  cases image : s.cpt.image <;> simp [restartCpt, image]

end

section
variable {s : State} {tag : ReqTag}

theorem exec_restart (t : Straps) (h : TakesNow s tag .restart) :
    exec (.restart t) s = .next (State.finish (softReset (afterAnswer s tag .restart .ok .none .none) t)) := by
  obtain ⟨⟨out_of_reset, _⟩, _⟩ := id h
  have accepted : acceptedIn .restart s.rlc.nodeState = true := by
    simpa [acceptedIn] using out_of_reset
  rw [← answer_dropRequest]
  exact request_takesNow h accepted _

theorem exec_park (h : TakesNow s tag .park) (hn : s.rlc.nodeState = .running) :
    exec .park s = .next (State.finish (servePark (dropRequest s) tag .park)) :=
  request_takesNow h (hn ▸ rfl) _

theorem exec_unpark (h : TakesNow s tag .unpark) (hn : s.rlc.nodeState = .parked) :
    exec .unpark s = .next (State.finish (enterResuming (afterAnswer s tag .unpark .ok .none .none))) := by
  rw [← answer_dropRequest]
  exact request_takesNow h (hn ▸ rfl) _

theorem servePark_idle (ha : s.moc.active = none) (hl : s.wgu.loadClass = .empty) :
    servePark (dropRequest s) tag .park = enterParked (afterAnswer s tag .park .ok .none .none) := by
  simp [servePark, ha, hl, answer_dropRequest]

/-- The responses behind an answer, once nothing more is answered. -/
theorem responses_afterAnswer {u : State} {r : Request} {st : Status} {why : Reason} {c : RespContent}
    (h : portView u.cpt = portView (afterAnswer s tag r st why c).cpt) :
    responses u.cpt = responses s.cpt ++ [responseTo tag r st why c] := by
  simp only [portView, Prod.mk.injEq] at h
  refine h.2.2.trans ?_
  simp [afterAnswer, responses, responseOf]

end

/-- Settles O51: RESTART through what it discards and the state it enters, PARK through the claims it removes and the
rest it leads to, UNPARK through the entry to RESUMING. -/
theorem restartParkAndUnpark : Obligations.RestartParkAndUnpark := by
  refine ⟨fun s tag t h work => ?_, fun s tag h hn => ⟨fun ha => ?_, fun ha hl => ?_, fun ha hl => ?_⟩,
    fun s tag h hn => ?_⟩
  · obtain ⟨r, entered, strapped⟩ := softReset_entered (afterAnswer s tag .restart .ok .none .none) t
    have served := exec_restart t h
    obtain ⟨settled, now, pending, lcp, smu, trucks, image, held, stream, ptb, clu, active, waiting, ended, required,
      requests, told, wgu, untracked⟩ := entered.restart _ t work
    have draft := entered.draft
    rw [settled] at served
    have rlc := entered.frame.rlc
    refine ⟨_, served, responses_afterAnswer (softReset_port _ _), now, pending, lcp, smu, trucks, image, held, stream,
      ptb, clu, active, waiting, ended, required, requests, told, wgu, untracked,
      (congrArg Rlc.straps rlc).trans strapped.straps, (congrArg Rlc.noticeSeq rlc).trans strapped.noticeSeq,
      (congrArg Rlc.rxBad rlc).trans strapped.rxBad, ?_,
      (congrArg Rlc.lastStop rlc).trans strapped.lastStop, entered.permits, fun k hk => ?_, fun hv he => ?_⟩
    · rw [entered.dropped, restarted_rlc]
      rfl
    · have number := strapNumber_of hk
      obtain ⟨fault, config, joining⟩ := strapped.numbered k number
      refine ⟨(congrArg Rlc.craneNo rlc).trans (strapped.craneNo.trans number), (congrArg Rlc.lastFault rlc).trans fault,
        fun no_image => ⟨(congrArg Rlc.nodeState rlc).trans (config no_image), draft.trans (if_pos no_image)⟩,
        fun has_image => ?_⟩
      obtain ⟨node, due⟩ := joining has_image
      exact ⟨(congrArg Rlc.nodeState rlc).trans node, draft.trans (if_neg has_image),
        (congrArg Rlc.joinEnd rlc).trans due⟩
    · have number := strapNumber_eq_none hv he
      obtain ⟨node, fault⟩ := strapped.unnumbered number
      exact ⟨(congrArg Rlc.craneNo rlc).trans (strapped.craneNo.trans number),
        (congrArg Rlc.nodeState rlc).trans node, (congrArg Rlc.lastFault rlc).trans fault⟩
  · exact .of_answer (exec_park h hn) (if_pos (Option.isSome_iff_ne_none.mpr ha))
  · exact .of_answer (exec_park h hn) (by simp [servePark, ha, hl])
  · have served := exec_park h hn
    rw [servePark_idle ha hl] at served
    have frame := (enterParked_frame (afterAnswer s tag .park .ok .none .none)).trans (finish_frame _)
    obtain ⟨claims, permits, requests, windows⟩ :=
      finish_enterParked (s := afterAnswer s tag .park .ok .none .none) ha
    refine ⟨_, served, ?_, claims, permits, windows, requests⟩
    have notices := congrArg Rlc.notices frame.rlc
    dsimp only at notices ⊢
    rw [notices]
    exact frame
  · obtain ⟨d, low, high, entered⟩ := enterResuming_frame (afterAnswer s tag .unpark .ok .none .none)
    have frame := entered.trans (finish_frame _)
    refine ⟨_, d, exec_unpark h hn, ?_, low, high, fun room => ?_⟩
    · have notices := congrArg Rlc.notices frame.rlc
      dsimp only at notices ⊢
      rw [notices]
      exact frame
    · refine (finish_queue _).subset ?_
      rw [enterResuming_eq]
      exact queueBeacon_mem _ (.inl (by rw [setNode_queue]; exact room))

end Sys2Proof.Machine
end

section
/-! FAULT on duplicate evidence: the active order ended, the claims freed of their holders, and the frames left. -/

namespace Sys2Proof.Machine

section
variable {s : State}

/-! ## The blocks as FAULT is entered -/

theorem compute_freed (s : State) : Freed 0 s s.compute := by
  refine ⟨compute_rlc s, ?_, ?_, ?_, ?_, ?_, [], ?_, by simp⟩ <;> simp

theorem endConflict_freed (s : State) (z : Nat) : Freed 0 s (endConflict s z) := by
  unfold endConflict
  split
  · refine .trans (m := 0) ?_ (compute_freed _)
    exact ⟨rfl, rfl, fun h => by simp [h], rfl, rfl, fun _ => id, [], by simp⟩
  · exact .refl s

theorem endConflict_conflicts (s : State) (z : Nat) :
    (endConflict s z).clu.conflicts = s.clu.conflicts.filter fun k => k != z := by
  unfold endConflict
  split
  · rw [compute_clu]
    rfl
  · rename_i absent
    refine (List.filter_eq_self.mpr fun k hk => ?_).symm
    rw [bne_iff_ne]
    rintro rfl
    exact absent (List.contains_iff_mem.mpr hk)

/-- Every conflict ends (R93). -/
theorem endConflicts_freed (s : State) : Freed 0 s (endConflicts s) ∧ (endConflicts s).clu.conflicts = [] := by
  have fold : ∀ (l : List Nat) (t : State), Freed 0 t (l.foldl endConflict t)
      ∧ ∀ z ∈ (l.foldl endConflict t).clu.conflicts, z ∈ t.clu.conflicts ∧ z ∉ l := by
    intro l
    induction l with
    | nil => exact fun t => ⟨.refl t, fun z hz => ⟨hz, List.not_mem_nil⟩⟩
    | cons k l ih =>
      intro t
      obtain ⟨freed, left⟩ := ih (endConflict t k)
      refine ⟨(endConflict_freed t k).trans freed, fun z hz => ?_⟩
      obtain ⟨old, rest⟩ := left z hz
      rw [endConflict_conflicts, List.mem_filter, bne_iff_ne] at old
      exact ⟨old.1, fun h => (List.mem_cons.mp h).elim old.2 rest⟩
  obtain ⟨freed, left⟩ := fold s.clu.conflicts s
  exact ⟨freed, List.eq_nil_iff_forall_not_mem.mpr fun z hz => (left z hz).2 (left z hz).1⟩

/-- Outside RUNNING the order leaves every claim it holds (R93, R195). -/
theorem releaseAll_freed (hn : s.rlc.nodeState ≠ .running) :
    Freed s.clu.claims.length s (releaseAll s) ∧ (releaseAll s).moc = s.moc := by
  have fold : ∀ (l : List Target) (t : State), t.rlc.nodeState ≠ .running →
      Freed l.length t (l.foldl (fun t u => releaseClaim t u .order) t)
        ∧ (l.foldl (fun t u => releaseClaim t u .order) t).moc = t.moc := by
    intro l
    induction l with
    | nil => exact fun t _ => ⟨.refl t, rfl⟩
    | cons u l ih =>
      intro t ht
      have first := releaseClaim_freed u .order ht
      obtain ⟨freed, moc⟩ := ih _ (first.node ht)
      have counted : 1 + l.length = (u :: l).length := Nat.add_comm 1 _
      exact ⟨counted ▸ first.trans freed, moc.trans (releaseClaim_moc_outside u .order ht)⟩
  obtain ⟨⟨rlc, claims, conflicts, double, trucks, requests, work, hw, len, kinds⟩, moc⟩ := fold
    ((s.clu.claims.filter fun c => c.holders.contains .order).map (·.target)) s hn
  refine ⟨⟨rlc, claims, conflicts, double, trucks, requests, work, hw, len.trans ?_, kinds⟩, moc⟩
  rw [List.length_map]
  exact List.length_filter_le _ _

theorem closeSession_freed (s : State) (order : Nat) : Freed 0 s (closeSession s order)
    ∧ (closeSession s order).moc = s.moc ∧ (closeSession s order).clu = s.clu := by
  have same (u : State) (h : u = s) : Freed 0 s u ∧ u.moc = s.moc ∧ u.clu = s.clu := by
    subst h
    exact ⟨.refl u, rfl, rfl⟩
  unfold closeSession
  split
  · exact same _ rfl
  split
  · split
    · exact ⟨⟨rfl, rfl, id, rfl, rfl, fun _ => id, [], by simp⟩, rfl, rfl⟩
    · exact same _ rfl
  · exact same _ rfl

theorem markUntracked_freed (s : State) (c : UntrackedCause) : Freed 0 s (markUntracked s c)
    ∧ (markUntracked s c).moc
      = { s.moc with untracked := if s.wgu.loadClass = .empty then s.moc.untracked else some c } := by
  unfold markUntracked
  split
  · exact ⟨.refl s, rfl⟩
  · exact ⟨⟨rfl, rfl, id, rfl, rfl, fun _ => id, [], by simp⟩, rfl⟩

theorem emitTarget_freed (s : State) (o : Nat) (p : TargetPhase) (x y z : Int) : Freed 0 s (s.emitTarget o p x y z) := by
  unfold State.emitTarget
  exact ⟨rfl, rfl, id, rfl, rfl, fun _ => id, [], by simp⟩

/-- The end of a failed order: its record, the mark of an untracked load, and the hand-on to activation (R195, R220). -/
theorem finishOrder_freed (s : State) (a : Active) (r : FailReason) :
    let kept : Ended := { ord := a.ord, ending := .failed r, result := a.result, destUse := a.destUse }
    let u := finishOrder s kept
    Freed 1 s u ∧ u.moc = { s.moc with
      active := none, ended := (kept :: s.moc.ended).take 4,
      untracked := if s.wgu.loadClass = .empty then s.moc.untracked else some .orderEnd } := by
  intro kept u
  let told := (s.emitTarget a.ord.id .failed s.sample.x s.sample.y s.sample.z).emit (.orderState a.ord.id (.ended (.failed r)))
  have target : Freed 0 s told := by
    refine (emitTarget_freed s a.ord.id .failed s.sample.x s.sample.y s.sample.z).trans (m := 0) ?_
    exact ⟨rfl, rfl, id, rfl, rfl, fun _ => id, [], by simp [told]⟩
  obtain ⟨marked, moc⟩ := markUntracked_freed told .orderEnd
  let idle := { markUntracked told .orderEnd with moc := { (markUntracked told .orderEnd).moc with active := none } }
  have inactive : Freed 0 (markUntracked told .orderEnd) idle :=
    ⟨rfl, rfl, id, rfl, rfl, fun _ => id, [], by simp [idle]⟩
  have computed := (target.trans marked).trans (inactive.trans (compute_freed _))
  refine ⟨computed.trans (m := 1) ⟨rfl, rfl, id, rfl, rfl, fun _ => id, [.activate], rfl, by simp, by simp⟩, ?_⟩
  have record : u.moc = { idle.compute.moc with ended := (kept :: idle.compute.moc.ended).take 4 } := rfl
  rw [record, compute_moc]
  dsimp only [idle]
  rw [moc]
  rfl

theorem HandOnFrame.wgu {s t : State} (h : HandOnFrame s t) : t.wgu = { s.wgu with session := t.wgu.session } := by
  obtain ⟨_, _, _, _, _, _, _, h, _⟩ := h
  exact h

/-- The active order ended FAILED outside RUNNING: its claims freed of it, its record kept (R93, R195, R220). -/
theorem endOrder_freed (r : FailReason) (hn : s.rlc.nodeState ≠ .running) :
    Freed (s.clu.claims.length + 1) s (endOrder s (.failed r))
      ∧ (s.moc.active = none → (endOrder s (.failed r)).moc = s.moc)
      ∧ ∀ a, s.moc.active = some a → (endOrder s (.failed r)).moc = { s.moc with
          active := none,
          ended := ({ ord := a.ord, ending := .failed r, result := a.result, destUse := a.destUse } :: s.moc.ended).take 4,
          untracked := if s.wgu.loadClass = .empty then s.moc.untracked else some .orderEnd } := by
  unfold endOrder
  split
  · rename_i idle
    refine ⟨?_, fun _ => rfl, fun a h => absurd (idle.symm.trans h) (by simp)⟩
    exact ⟨rfl, rfl, id, rfl, rfl, fun _ => id, [], by simp⟩
  · rename_i a ha
    obtain ⟨closed, closed_moc, closed_clu⟩ := closeSession_freed s a.ord.id
    obtain ⟨released, released_moc⟩ := releaseAll_freed (s := closeSession s a.ord.id) (closed.node hn)
    obtain ⟨finished, moc⟩ := finishOrder_freed (releaseAll (closeSession s a.ord.id)) a r
    have load : (releaseAll (closeSession s a.ord.id)).wgu.loadClass = s.wgu.loadClass := by
      have moves : Moves false s (releaseAll (closeSession s a.ord.id)) :=
        .foldl (fun t x => releaseClaim_moves (.refl t) x .order) _ (closeSession_moves (.refl s) a.ord.id)
      rw [moves.frame.wgu]
    rw [closed_clu] at released
    have freed := (closed.trans released).trans finished
    rw [Nat.zero_add] at freed
    refine ⟨freed, fun h => absurd (ha.symm.trans h) (by simp), fun b hb => ?_⟩
    obtain rfl : a = b := Option.some.inj (ha.symm.trans hb)
    rw [moc, released_moc, closed_moc, load]

/-- What an entry to FAULT leaves of conflicts, claims, orders and truck requests, and what it hands on (R93, R161,
R197). -/
structure FaultBlocks (s t : State) : Prop where
  claims : t.clu.claims.map withoutHolders = s.clu.claims.map withoutHolders
  conflicts : t.clu.conflicts = []
  doubleHeld : t.clu.doubleHeld = s.clu.doubleHeld
  tbu : t.tbu = { s.tbu with requests := PerBay.all none }
  idle : s.moc.active = none → t.moc = s.moc
  ended : ∀ a, s.moc.active = some a → t.moc = { s.moc with
    active := none,
    ended := ({ ord := a.ord, ending := .failed .nodeFault, result := a.result, destUse := a.destUse }
      :: s.moc.ended).take 4,
    untracked := if s.wgu.loadClass = .empty then s.moc.untracked else some .orderEnd }
  work : ∃ l, t.work = s.work ++ l ∧ l.length ≤ s.clu.claims.length + 5
    ∧ ∀ w ∈ l, w = .claimRemoved ∨ w = .activate

theorem FaultBlocks.inactive {t : State} (h : FaultBlocks s t) : t.moc.active = none := by
  cases ha : s.moc.active with
  | none => rw [h.idle ha, ha]
  | some a => rw [h.ended a ha]

theorem FaultBlocks.waiting {t : State} (h : FaultBlocks s t) : t.moc.waiting = s.moc.waiting := by
  cases ha : s.moc.active with
  | none => rw [h.idle ha]
  | some a => rw [h.ended a ha]

theorem perBay_all_none {α : Type} {q : PerBay (Option α)} (h : ∀ bay, q.get bay = none) : q = PerBay.all none := by
  obtain ⟨b1, b2, b3, b4⟩ := q
  obtain ⟨rfl, rfl, rfl, rfl⟩ : b1 = none ∧ b2 = none ∧ b3 = none ∧ b4 = none := ⟨h 1, h 2, h 3, h 4⟩
  rfl

theorem failBlocks_spec (hn : s.rlc.nodeState ≠ .running) :
    FaultBlocks s (failBlocks s) ∧ (failBlocks s).rlc = s.rlc := by
  obtain ⟨calmed, calm⟩ := endConflicts_freed s
  obtain ⟨closed, idle, ended⟩ := endOrder_freed (s := endConflicts s) .nodeFault (calmed.node hn)
  obtain ⟨withdrawn, moc, none_pending⟩ := withdrawTruckReqs_freed (s := endOrder (endConflicts s) (.failed .nodeFault))
    .nodeFault (closed.node (calmed.node hn))
  have load : (endConflicts s).wgu.loadClass = s.wgu.loadClass := by
    rw [(endConflicts_moves (cmd := false) (.refl s)).frame.wgu]
  have all := (calmed.trans closed).trans withdrawn
  rw [endConflicts_claims, Nat.zero_add] at all
  rw [endConflicts_moc] at idle ended
  have requests := perBay_all_none none_pending
  refine ⟨⟨all.claims, withdrawn.conflicts (closed.conflicts calm), all.doubleHeld, requests ▸ all.trucks,
    fun h => moc.trans (idle h), fun a ha => ?_, all.work⟩, all.rlc⟩
  rw [← load]
  exact moc.trans (ended a ha)

theorem FaultBlocks.of_same {r t u : State} (h : SameBlocks r s) (k : FaultBlocks s t) (j : SameBlocks t u) :
    FaultBlocks r u := by
  obtain ⟨claims, conflicts, double, tbu, idle, ended, work⟩ := k
  rw [h.clu] at claims double work
  rw [h.tbu] at tbu
  rw [h.moc] at idle ended
  rw [h.wgu] at ended
  rw [h.work] at work
  rw [← j.clu] at claims conflicts double
  rw [← j.tbu] at tbu
  rw [← j.moc] at idle ended
  rw [← j.work] at work
  exact ⟨claims, conflicts, double, tbu, idle, ended, work⟩

/-! ## FAULT entered on duplicate evidence (R24) -/

/-- The node in FAULT with its blocks still as they stood. -/
def nowFaulted (s : State) : State := setNode { stopTimers s with rlc.lastFault := .duplicateNumber } .fault .duplicateNumber

theorem faulted_eq (s : State) : faulted s .duplicateNumber = (failBlocks (nowFaulted s)).keepBeacon := rfl

theorem nowFaulted_blocks (s : State) : SameBlocks s (nowFaulted s) :=
  SameBlocks.trans (t := { stopTimers s with rlc.lastFault := .duplicateNumber }) ⟨rfl, rfl, rfl, rfl, rfl⟩
    (setNode_blocks _ _ _)

theorem nowFaulted_rlc (s : State) : (nowFaulted s).rlc = faultRlc s.rlc .duplicateNumber := by
  simp [nowFaulted, setNode, stopTimers, faultRlc]

/-- The frames left of the transmit queue on entry to FAULT: its BEACONs (R24). -/
theorem keepBeacon_queue (s : State) : s.keepBeacon.rlc.queue = s.rlc.queue.filter fun i => i == .beacon := by
  unfold State.keepBeacon
  dsimp only
  split
  · rfl
  · rw [beginAttempt_frame]

/-- FAULT entered, with its frames still to be queued: its blocks, the frames left, and the windows as they stood. -/
structure FaultedSpec (s t : State) : Prop where
  blocks : FaultBlocks s t
  queue : t.rlc.queue = s.rlc.queue.filter fun i => i == .beacon
  windows : t.rlc.truckWin = s.rlc.truckWin
  permits : t.epu.record.permits = zeroPermits .state

theorem keepBeacon_truckWin (s : State) : s.keepBeacon.rlc.truckWin = s.rlc.truckWin := by
  unfold State.keepBeacon
  dsimp only
  split
  · rfl
  · rw [beginAttempt_frame]

theorem faulted_spec (s : State) : FaultedSpec s (faulted s .duplicateNumber) := by
  have node := nowFaulted_rlc s
  obtain ⟨blocks, rlc⟩ := failBlocks_spec (s := nowFaulted s) (by rw [node]; simp [faultRlc])
  rw [faulted_eq]
  refine ⟨.of_same (nowFaulted_blocks s) blocks (keepBeacon_blocks _), ?_, ?_, ?_⟩
  · rw [keepBeacon_queue, rlc, node]
    rfl
  · rw [keepBeacon_truckWin, rlc, node]
    rfl
  · rw [keepBeacon_epu]
    exact (failBlocks_moves _).permits (by rw [node]; simp [faultRlc]) (setNode_permits (by decide) (by decide) _ _)

theorem queueBeacon_blocks (s : State) : SameBlocks s s.queueBeacon := by
  have lined := queueBeacon_lined s
  unfold Lined at lined
  rw [lined]
  exact ⟨rfl, rfl, rfl, rfl, rfl⟩

theorem queueProfile_blocks (s : State) : SameBlocks s s.queueProfile := by
  rw [queueProfile_frame]
  exact ⟨rfl, rfl, rfl, rfl, rfl⟩

/-- On duplicate evidence a BEACON is queued, and from JOINING a PROFILE behind it (R24). -/
theorem enterFault_duplicate (s : State) : enterFault s .duplicateNumber =
    if s.rlc.nodeState = .joining then (faulted s .duplicateNumber).queueBeacon.queueProfile
    else (faulted s .duplicateNumber).queueBeacon := by
  rw [enterFault_eq, faultFrames, if_pos rfl]
  simp only [beq_iff_eq]

theorem enterFault_blocks (s : State) : SameBlocks (faulted s .duplicateNumber) (enterFault s .duplicateNumber) := by
  rw [enterFault_duplicate]
  split
  · exact (queueBeacon_blocks _).trans (queueProfile_blocks _)
  · exact queueBeacon_blocks _

theorem queueBeacon_epu (s : State) : s.queueBeacon.epu = s.epu := by
  have lined := queueBeacon_lined s
  unfold Lined at lined
  rw [lined]

theorem enterFault_permits (s : State) : (enterFault s .duplicateNumber).epu.record.permits = zeroPermits .state := by
  have permits := (faulted_spec s).permits
  rw [enterFault_duplicate]
  split
  · rw [queueProfile_frame, queueBeacon_epu, permits]
  · rw [queueBeacon_epu, permits]

theorem enterFault_beaconDue (s : State) :
    (faulted s .duplicateNumber).queueBeacon.rlc.beaconDue = some (s.now + 1000) := by
  have frame := faulted_frame s .duplicateNumber
  have node : (faulted s .duplicateNumber).rlc.nodeState = .fault := by
    rw [frame.rlc]
    rfl
  have now : (faulted s .duplicateNumber).now = s.now := frame.now
  obtain ⟨d, due, _, slow⟩ := startInterval_due (faulted s .duplicateNumber)
  rw [queueBeacon_beaconDue, due, slow (by simp [node]) (by simp [node]), now]

theorem enterFault_frame (s : State) : HandOnFrame
    { s with rlc := { faultRlc s.rlc .duplicateNumber with
        beaconDue := some (s.now + 1000), notices := (faulted s .duplicateNumber).queueBeacon.rlc.notices,
        profileDue := if s.rlc.nodeState = .joining then some (s.now + 5000) else s.rlc.profileDue } }
    (enterFault s .duplicateNumber) := by
  have framed := (faulted_frame s .duplicateNumber).lined (queueBeacon_lined _)
  rw [enterFault_beaconDue] at framed
  rw [enterFault_duplicate]
  split
  · exact framed.queueProfile
  · exact framed

/-- The frames that wait once FAULT is entered: BEACONs, the repeats, and from JOINING a PROFILE (R24). -/
theorem enterFault_queue (s : State) {i : TxItem} (h : i ∈ (enterFault s .duplicateNumber).rlc.queue) :
    i = .beacon ∨ (i = .profile ∧ s.rlc.nodeState = .joining) ∨ i ∈ repeats (faulted s .duplicateNumber) := by
  have beacons : ∀ i ∈ (faulted s .duplicateNumber).queueBeacon.rlc.queue,
      i = .beacon ∨ i ∈ repeats (faulted s .duplicateNumber) := by
    intro i hi
    rcases (queueBeacon_offered _).mem i hi with hi | hi
    · rcases (offer_offered _ _).mem i hi with hi | hi
      · rw [startInterval_queue, (faulted_spec s).queue, List.mem_filter] at hi
        exact .inl (by simpa using hi.2)
      · exact .inl (by simpa using hi)
    · exact .inr hi
  rw [enterFault_duplicate] at h
  split at h
  · rcases (queueProfile_offered _).mem i h with hi | hi
    · exact (beacons i hi).imp_right .inr
    · exact .inr (.inl ⟨by simpa using hi, ‹_›⟩)
  · exact (beacons i h).imp_right .inr

theorem mem_repeats {i : TxItem} (h : i ∈ repeats s) : (∃ w ∈ s.rlc.notices, i = .fixed (.notice w.notice))
    ∨ ∃ b, 1 ≤ b ∧ b ≤ 4 ∧ (s.rlc.truckWin.get b).isSome = true ∧ i = .fixed (truckBody s b) := by
  simp only [repeats, List.mem_append, List.mem_map, List.mem_filter] at h
  rcases h with ⟨w, hw, rfl⟩ | ⟨b, ⟨hb, open_window⟩, rfl⟩
  · exact .inl ⟨w, hw, rfl⟩
  · have range : 1 ≤ b ∧ b ≤ 4 := by
      simp only [List.mem_cons, List.not_mem_nil, or_false] at hb
      omega
    exact .inr ⟨b, range.1, range.2, open_window, rfl⟩

theorem faulted_notices (s : State) : (faulted s .duplicateNumber).rlc.notices = s.rlc.notices := by
  rw [(faulted_frame s .duplicateNumber).rlc]
  rfl

/-- The repeats of R24 are those of the windows as they stood. -/
theorem faulted_repeats (s : State) {i : TxItem} (h : i ∈ repeats (faulted s .duplicateNumber)) :
    (∃ w ∈ s.rlc.notices, i = .fixed (.notice w.notice))
      ∨ ∃ b, 1 ≤ b ∧ b ≤ 4 ∧ (s.rlc.truckWin.get b).isSome = true
        ∧ i = .fixed (.truckState b (s.tbu.trucks.get b).version (s.tbu.trucks.get b).content) := by
  have repeated := mem_repeats h
  rw [faulted_notices, (faulted_spec s).windows] at repeated
  simp only [truckBody, (faulted_spec s).blocks.tbu] at repeated
  exact repeated

/-- The BEACON of R24 waits in the queue. -/
theorem enterFault_beacon (s : State) : .beacon ∈ (enterFault s .duplicateNumber).rlc.queue := by
  have queued : .beacon ∈ (faulted s .duplicateNumber).queueBeacon.rlc.queue := by
    cases hq : (faulted s .duplicateNumber).rlc.queue with
    | nil => exact queueBeacon_mem _ (.inl (by simp [hq]))
    | cons i l =>
      have first : i ∈ (faulted s .duplicateNumber).rlc.queue := hq ▸ List.mem_cons_self
      have is_beacon : i = .beacon := by
        rw [(faulted_spec s).queue, List.mem_filter] at first
        simpa using first.2
      have grown := ((offer_offered (faulted s .duplicateNumber).startInterval .beacon).grows.trans
        (queueBeacon_offered _).grows).subset
      rw [startInterval_queue] at grown
      exact is_beacon ▸ grown first
  rw [enterFault_duplicate]
  split
  · exact (queueProfile_offered _).grows.subset queued
  · exact queued

/-- From JOINING, with no BEACON waiting, the PROFILE of R24 finds room behind the BEACON and the repeats. -/
theorem enterFault_profile (hn : s.rlc.nodeState = .joining) (hb : .beacon ∉ s.rlc.queue)
    (h8 : s.rlc.notices.length ≤ 8) : .profile ∈ (enterFault s .duplicateNumber).rlc.queue := by
  have empty : (faulted s .duplicateNumber).rlc.queue = [] := by
    rw [(faulted_spec s).queue, List.filter_eq_nil_iff]
    intro i hi is_beacon
    exact hb (eq_of_beq is_beacon ▸ hi)
  have notices := faulted_notices s
  have short := repeats_length (faulted s .duplicateNumber)
  rw [notices] at short
  rw [enterFault_duplicate, if_pos hn]
  refine queueProfile_mem _ (.inl ?_)
  rw [queueBeacon_queue_of_empty _ empty (notices ▸ h8), List.length_cons]
  omega

end

/-! ## Duplicate evidence (R19, R20) -/

section
variable {s : State} {f : Frame}

theorem exec_rxCommand (s : State) (f : Frame) : ∃ route, exec (rxCommand f) s = .next (State.finish (receive s f route)) := by
  obtain ⟨sender, serial, body⟩ := f
  cases body <;> exact ⟨_, rfl⟩

theorem receive_duplicate {route : State → State} (hc : s.rlc.craneNo = some f.sender) (hs : f.serial ≠ s.serial)
    (ok : Codec.frameOk f = true) (hr : s.rlc.nodeState ≠ .reset) : receive s f route = heardDuplicate s f := by
  simp [receive, heard, hr, ok, hc, hs]

theorem exec_duplicate (hc : s.rlc.craneNo = some f.sender) (hs : f.serial ≠ s.serial)
    (ok : Codec.frameOk f = true) (hr : s.rlc.nodeState ≠ .reset) :
    exec (rxCommand f) s = .next (State.finish (heardDuplicate s f)) := by
  obtain ⟨route, h⟩ := exec_rxCommand s f
  rw [h, receive_duplicate hc hs ok hr]

/-- With at most 6 claims and no hand-ons waiting, the hand-ons of an entry to FAULT change nothing. -/
theorem finish_enterFault (work : s.work = []) (h6 : s.clu.claims.length ≤ 6) :
    State.finish (enterFault s .duplicateNumber) = { enterFault s .duplicateNumber with work := [] } := by
  have blocks := (faulted_spec s).blocks
  have same := enterFault_blocks s
  obtain ⟨l, handed, len, kinds⟩ := blocks.work
  rw [work, List.nil_append, ← same.work] at handed
  have rest : AtRest (enterFault s .duplicateNumber) := by
    refine ⟨?_, fun bay => ?_, ?_⟩
    · rw [same.moc, blocks.inactive]
    · rw [same.tbu, blocks.tbu]
      match bay with
      | 0 | 1 | 2 | 3 | _ + 4 => rfl
    · rw [(enterFault_frame s).rlc]
      simp [faultRlc]
  rw [rest.finish fun ⟨bay, hw⟩ => absurd (kinds _ (handed ▸ hw)) (by simp), handed, List.drop_eq_nil_of_le (by omega)]

end

theorem not_onlyReported_of_faultsNode {st : NodeState} {b : FrameBody} (h : faultsNode st b) : ¬ onlyReported st b := by
  cases st <;> cases b <;> simp_all [faultsNode, onlyReported]

/-- Settles O23: a frame of the own number faults the node, is reported, or is dropped, by the node state and its kind. -/
theorem duplicateNumberEvidence : Obligations.DuplicateNumberEvidence := by
  intro s f hc hs ok hr st c freed
  have run := exec_duplicate hc hs ok hr
  refine ⟨fun none_fault none_said => ?_, fun said => ?_, fun faults => ?_⟩
  · rcases heardDuplicate_cases s f with ⟨h, _⟩ | ⟨_, h, _⟩ | ⟨_, _, e⟩
    · exact absurd h none_fault
    · exact absurd h none_said
    · rw [e] at run
      exact .of_exec run
  · rcases heardDuplicate_cases s f with ⟨h, _⟩ | ⟨_, _, e⟩ | ⟨_, h, _⟩
    · exact absurd said (not_onlyReported_of_faultsNode h)
    · rw [e, sayDuplicate] at run
      simp only [List.contains_iff_mem] at run
      exact .of_exec run
    · exact absurd said h
  · rcases heardDuplicate_cases s f with ⟨_, e⟩ | ⟨h, _⟩ | ⟨h, _⟩
    · rw [e] at run
      refine ⟨_, .of_exec run, fun work claims => ?_, ?_⟩
      · rw [run, finish_enterFault work claims.1]
      have frame := enterFault_frame s
      have blocks := FaultBlocks.of_same ⟨rfl, rfl, rfl, rfl, rfl⟩ (faulted_spec s).blocks (enterFault_blocks s)
      have rlc := frame.rlc
      have cpt := frame.cpt
      have wgu := frame.wgu
      obtain ⟨serial, now, ptb, smu, lcp, pending, _⟩ := frame
      refine ⟨now, serial, ptb, smu, lcp, pending, cpt, wgu, blocks.tbu, enterFault_permits s, blocks.claims,
        blocks.conflicts, blocks.doubleHeld, blocks.inactive, blocks.waiting, blocks.idle,
        fun a ha => ⟨⟨blocks.inactive, ?_⟩, ?_⟩,
        congrArg Rlc.nodeState rlc, congrArg Rlc.lastFault rlc, (congrArg Rlc.straps rlc).trans rfl, (congrArg Rlc.craneNo rlc).trans rfl,
        congrArg Rlc.joinDue rlc, congrArg Rlc.joinEnd rlc, congrArg Rlc.resumeEnd rlc, congrArg Rlc.beaconDue rlc,
        enterFault_beacon s, fun joining absent h8 => ⟨enterFault_profile joining absent h8, ?_⟩, fun i hi => ?_⟩
      · rw [blocks.ended a ha]
        rfl
      · rw [blocks.ended a ha]
      · exact (congrArg Rlc.profileDue rlc).trans (if_pos joining)
      · rcases enterFault_queue s hi with h | h | h
        · exact .inl h
        · exact .inr (.inl h)
        · exact .inr (.inr (faulted_repeats s h))
    · exact absurd faults h
    · exact absurd faults h

end Sys2Proof.Machine
end

section
/-! Double holds (R84, R90 to R92): what a step on one claim leaves of the others, and what it makes of its own. -/

namespace Sys2Proof.Machine

/-! ## Steps beside a claim -/

/-- All that `u` differs from `s` in lies beside the own claim on `t`: its entry, its conflict and its double holds stand,
hand-ons, frames and release windows only join, at most `n` frames, and events only join the log. -/
structure Beside (t : Target) (n : Nat) (s u : State) : Prop where
  claim : findClaim u t = findClaim s t
  conflict : ∀ z, t = .zone z → (z ∈ u.clu.conflicts ↔ z ∈ s.clu.conflicts)
  double : ∀ k, t = .slot k → ∀ m, ((k, m) ∈ u.clu.doubleHeld ↔ (k, m) ∈ s.clu.doubleHeld)
  work : s.work <+: u.work
  queue : s.rlc.queue <+: u.rlc.queue
  length : u.rlc.queue.length ≤ s.rlc.queue.length + n
  windows : ∀ bay, s.rlc.truckWin.get bay = releaseOpened → u.rlc.truckWin.get bay = releaseOpened
  moc : u.moc = s.moc
  serial : u.serial = s.serial
  image : u.cpt.image = s.cpt.image
  logs : Logs s.cpt u.cpt

section
variable {t : Target} {n m : Nat} {s u v : State}

theorem Beside.trans (h : Beside t n s u) (k : Beside t m u v) : Beside t (n + m) s v where
  claim := k.claim.trans h.claim
  conflict z e := (k.conflict z e).trans (h.conflict z e)
  double i e j := (k.double i e j).trans (h.double i e j)
  work := h.work.trans k.work
  queue := h.queue.trans k.queue
  length := by
    have := h.length
    have := k.length
    omega
  windows bay := k.windows bay ∘ h.windows bay
  moc := k.moc.trans h.moc
  serial := k.serial.trans h.serial
  image := k.image.trans h.image
  logs := h.logs.trans k.logs

theorem Beside.mono (h : Beside t n s u) (hm : n ≤ m) : Beside t m s u :=
  { h with length := h.length.trans (Nat.add_le_add_left hm _) }

/-- Steps that leave the claim list and the transmit queue alone, and hand on more. -/
theorem Beside.of_clu (hc : u.clu = s.clu) (hw : s.work <+: u.work) (hr : u.rlc = s.rlc) (hm : u.moc = s.moc)
    (hs : u.serial = s.serial) (hi : u.cpt.image = s.cpt.image) (hl : Logs s.cpt u.cpt) : Beside t 0 s u :=
  ⟨by rw [findClaim, hc, findClaim], fun _ _ => by rw [hc], fun _ _ _ => by rw [hc], hw, hr ▸ List.prefix_rfl,
    by rw [hr]; omega, fun _ => by rw [hr]; exact id, hm, hs, hi, hl⟩

theorem Beside.refl (s : State) : Beside t 0 s s :=
  .of_clu rfl List.prefix_rfl rfl rfl rfl rfl (.refl _)

theorem compute_beside (s : State) : Beside t 0 s s.compute :=
  .of_clu (compute_clu s) (by rw [compute_work]) (compute_rlc s) (compute_moc s) (compute_serial s)
    ((Moves.refl (cmd := false) s).compute.image) (compute_logs s)

theorem emit_beside (s : State) (e : Event) : Beside t 0 s (s.emit e) :=
  .of_clu rfl List.prefix_rfl rfl rfl rfl (emit_image s e) (offerEvent_logs _ _ _)

theorem offer_beside (s : State) (i : TxItem) : Beside t 1 s (s.offer i) := by
  have offered := offer_offered s i
  refine ⟨by rw [findClaim, offer_clu, findClaim], fun _ _ => by rw [offer_clu], fun _ _ _ => by rw [offer_clu],
    by rw [offer_work], offered.grows, offered.length, fun bay => by rw [offer_truckWin]; exact id, offer_moc s i,
    offer_serial s i, by rw [offer_cpt], by rw [offer_cpt]; exact .refl _⟩

theorem releaseWindow_beside (s : State) (bay : Nat) : Beside t 0 s (s.openReleaseWindow bay) := by
  refine ⟨rfl, fun _ _ => Iff.rfl, fun _ _ _ => Iff.rfl, List.prefix_rfl, List.prefix_rfl, le_rfl, fun b hb => ?_, rfl,
    rfl, rfl, .refl _⟩
  rcases perBay_get_set s.rlc.truckWin bay b releaseOpened with ⟨opened, _⟩ | ⟨same, _⟩
  · exact opened
  · exact same.trans hb

/-- The entry on a target after the entry on one target is changed. -/
theorem findClaim_putClaim (s : State) (t q : Target) (f : OwnClaim → OwnClaim) (hf : ∀ c, (f c).target = c.target) :
    findClaim (putClaim s q f) t = if t = q then (findClaim s t).map f else findClaim s t := by
  have same : (fun c : OwnClaim => c.target == t) ∘ (fun c : OwnClaim => if c.target == q then f c else c)
      = fun c => c.target == t := by
    funext c
    simp only [Function.comp_apply]
    split
    · rw [hf]
    · rfl
  simp only [findClaim, putClaim, List.find?_map, same]
  cases h : s.clu.claims.find? fun c => c.target == t with
  | none => simp
  | some c =>
    have hc : c.target = t := by simpa using List.find?_some h
    simp only [Option.map_some, hc, beq_iff_eq]
    split <;> rfl

theorem putClaim_beside (s : State) {q : Target} {f : OwnClaim → OwnClaim} (hf : ∀ c, (f c).target = c.target)
    (hq : q ≠ t) : Beside t 0 s (putClaim s q f) :=
  ⟨by rw [findClaim_putClaim s t q f hf, if_neg hq.symm], fun _ _ => Iff.rfl, fun _ _ _ => Iff.rfl, List.prefix_rfl,
    List.prefix_rfl, le_rfl, fun _ => id, rfl, rfl, rfl, .refl _⟩

/-- A change of the conflict set that leaves the zone of the claim alone. -/
theorem conflicts_beside (s : State) {l : List Nat} (h : ∀ z, t = .zone z → (z ∈ l ↔ z ∈ s.clu.conflicts)) :
    Beside t 0 s { s with clu.conflicts := l } :=
  ⟨rfl, h, fun _ _ _ => Iff.rfl, List.prefix_rfl, List.prefix_rfl, le_rfl, fun _ => id, rfl, rfl, rfl, .refl _⟩

/-- A change of the double holds that leaves the slot of the claim alone. -/
theorem doubleHeld_beside (s : State) {l : List (Nat × Nat)}
    (h : ∀ k, t = .slot k → ∀ m, ((k, m) ∈ l ↔ (k, m) ∈ s.clu.doubleHeld)) : Beside t 0 s { s with clu.doubleHeld := l } :=
  ⟨rfl, fun _ _ => Iff.rfl, h, List.prefix_rfl, List.prefix_rfl, le_rfl, fun _ => id, rfl, rfl, rfl, .refl _⟩

/-! ## The CLU's steps beside a claim -/

theorem endConflict_beside (s : State) {z : Nat} (hz : t ≠ .zone z) : Beside t 0 s (endConflict s z) := by
  unfold endConflict
  split
  · refine ((conflicts_beside s fun y hy => ?_).trans (emit_beside _ _)).trans (compute_beside _)
    rw [List.mem_filter, bne_iff_ne]
    exact ⟨And.left, fun h => ⟨h, fun e => hz (e ▸ hy)⟩⟩
  · exact .refl s

theorem startConflict_beside (s : State) {z : Nat} (hz : t ≠ .zone z) : Beside t 0 s (startConflict s z) := by
  unfold startConflict
  split
  · exact .refl s
  · refine ((conflicts_beside s fun y hy => ?_).trans (emit_beside _ _)).trans (compute_beside _)
    rw [List.mem_append, List.mem_singleton]
    exact or_iff_left fun e => hz (e ▸ hy)

/-- What a change of an entry hands on (R94, R95). -/
def handedWork (s : State) (q : Target) (st : ClaimState) (left : Bool) (hs : List Holder) : List Work :=
  (ownBay s q).toList.map .truckClaim
    ++ if hs.contains .order then s.moc.active.toList.map fun a => .orderClaim a.ord.id q st left else []

theorem handChange_eq (s : State) (q : Target) (st : ClaimState) (left : Bool) (hs : List Holder) :
    handChange s q st left hs = { s with work := s.work ++ handedWork s q st left hs } := by
  unfold handChange handedWork
  cases ownBay s q with
  | none =>
    cases ha : s.moc.active with
    | none => simp [ha]
    | some a => split_ifs <;> simp [ha, State.hand]
  | some bay =>
    cases ha : s.moc.active with
    | none => simp [ha, State.hand]
    | some a => split_ifs <;> simp [ha, State.hand]

theorem claimChanged_beside (s : State) (q : Target) (st : ClaimState) (left : Bool) (hs : List Holder) :
    Beside t 0 s (claimChanged s q st left hs) := by
  unfold claimChanged
  rw [handChange_eq]
  refine ((compute_beside s).trans (emit_beside _ (.claimState q (some st)))).trans (m := 0) ?_
  exact .of_clu rfl (List.prefix_append _ _) rfl rfl rfl rfl (.refl _)

/-- The release window of a target's bay opened (R86). -/
def releasingBay (s : State) (q : Target) : State := (ownBay s q).elim s s.openReleaseWindow

theorem leaveHeld_zone (s : State) (z : Nat) : leaveHeld s (.zone z) = endConflict (releasingBay s (.zone z)) z := by
  unfold leaveHeld releasingBay
  cases ownBay s (.zone z) <;> rfl

theorem leaveHeld_slot (s : State) (k : Nat) : leaveHeld s (.slot k) = { releasingBay s (.slot k) with
    clu := { (releasingBay s (.slot k)).clu with doubleHeld := s.clu.doubleHeld.filter fun d => d.1 != k } } := by
  unfold leaveHeld releasingBay
  cases ownBay s (.slot k) <;> rfl

theorem leaveHeld_other (s : State) (k id : Nat) : leaveHeld s (.other k id) = releasingBay s (.other k id) := by
  unfold leaveHeld releasingBay
  cases ownBay s (.other k id) <;> rfl

theorem releasingBay_beside (s : State) (q : Target) :
    Beside t 0 s (releasingBay s q) ∧ (releasingBay s q).clu = s.clu := by
  unfold releasingBay
  cases ownBay s q with
  | none => exact ⟨.refl s, rfl⟩
  | some bay => exact ⟨releaseWindow_beside s bay, rfl⟩

theorem leaveHeld_beside (s : State) {q : Target} (hq : q ≠ t) : Beside t 0 s (leaveHeld s q) := by
  obtain ⟨released, clu⟩ := releasingBay_beside (t := t) s q
  cases q with
  | zone z =>
    rw [leaveHeld_zone]
    exact released.trans (endConflict_beside _ hq.symm)
  | slot k =>
    rw [leaveHeld_slot]
    refine released.trans (doubleHeld_beside _ fun i hi j => ?_)
    rw [List.mem_filter, bne_iff_ne, clu]
    exact ⟨And.left, fun hd => ⟨hd, fun e => hq (by rw [hi, ← e])⟩⟩
  | other k id =>
    rw [leaveHeld_other]
    exact released

theorem yieldClaim_beside (s : State) {c : OwnClaim} (hc : c.target ≠ t) : Beside t 1 s (yieldClaim s c) := by
  have waits := putClaim_beside (t := t) s (q := c.target) (f := fun c => { c with state := .waiting }) (fun _ => rfl) hc
  unfold yieldClaim
  dsimp only
  split
  · exact ((waits.trans (leaveHeld_beside _ hc)).trans (offer_beside _ _)).trans (claimChanged_beside _ _ _ _ _)
  · exact (waits.trans (offer_beside _ _)).trans (claimChanged_beside _ _ _ _ _)

theorem reaskClaim_beside (s : State) {c : OwnClaim} (hc : c.target ≠ t) : Beside t 1 s (reaskClaim s c) :=
  ((putClaim_beside (t := t) s (q := c.target) (f := fun c => { c with state := .asking, askedAt := s.now })
    (fun _ => rfl) hc).trans (offer_beside _ _)).trans (claimChanged_beside _ _ _ _ _)

theorem settleZone_beside (s : State) (img : Image) {c : OwnClaim} {z : Nat} (hc : c.target ≠ t) (hz : t ≠ .zone z) :
    Beside t 1 s (settleZone s img c z) := by
  have ended := (endConflict_beside s hz).mono (Nat.zero_le 1)
  unfold settleZone
  split
  · exact (Beside.refl s).mono (Nat.zero_le 1)
  dsimp only
  split
  · exact ended
  split
  · exact yieldClaim_beside s hc
  split
  · exact (startConflict_beside s hz).mono (Nat.zero_le 1)
  · exact ended

theorem keepDouble_beside (s : State) {k : Nat} (hk : t ≠ .slot k) (l : List Nat) : Beside t 0 s (keepDouble s k l) := by
  refine doubleHeld_beside s fun i hi j => ?_
  have other : i ≠ k := fun e => hk (e ▸ hi)
  simp [other]

theorem tellDouble_beside (s : State) {k : Nat} (hk : t ≠ .slot k) (l : List Nat) : Beside t 0 s (tellDouble s k l) := by
  have told : ∀ (ns : List Nat) (v : State), Beside t 0 v (ns.foldl (fun v n => v.emit (.slotDoubleHold k n)) v) := by
    intro ns
    induction ns with
    | nil => exact fun v => .refl v
    | cons n ns ih => exact fun v => (emit_beside v _).trans (ih _)
  unfold tellDouble
  refine (doubleHeld_beside s fun i hi j => ?_).trans (told _ _)
  have other : i ≠ k := fun e => hk (e ▸ hi)
  simp [other.symm]

theorem settleSlot_beside (s : State) {c : OwnClaim} {k : Nat} (hc : c.target ≠ t) (hk : t ≠ .slot k) :
    Beside t 1 s (settleSlot s c k) := by
  have kept := keepDouble_beside s hk ((holdingPeers s c.target).map (·.n))
  unfold settleSlot
  dsimp only
  split
  · exact kept.mono (Nat.zero_le 1)
  split
  · exact kept.trans (yieldClaim_beside _ hc)
  · exact (kept.trans (tellDouble_beside _ hk _)).mono (Nat.zero_le 1)

theorem settleDouble_beside (s : State) {c : OwnClaim} (hc : c.target ≠ t) : Beside t 1 s (settleDouble s c) := by
  unfold settleDouble
  split
  · exact (Beside.refl s).mono (Nat.zero_le 1)
  split
  · rename_i z hz
    exact settleZone_beside s _ hc (fun e => hc (hz.trans e.symm))
  · rename_i k hk
    exact settleSlot_beside s hc (fun e => hc (hk.trans e.symm))
  · exact (Beside.refl s).mono (Nat.zero_le 1)

theorem findClaim_target {c : OwnClaim} {q : Target} (h : findClaim s q = some c) : c.target = q := by
  simpa using List.find?_some h

/-- A test of the entry on one target lies beside the claims on the others (R81, R83, R84). -/
theorem retestClaim_beside (s : State) {q : Target} (hq : q ≠ t) : Beside t 1 s (retestClaim s q) := by
  have idle := (Beside.refl (t := t) s).mono (Nat.zero_le 1)
  unfold retestClaim
  split
  · exact idle
  · rename_i c hc
    have target : c.target ≠ t := findClaim_target hc ▸ hq
    split
    · split
      · exact yieldClaim_beside s target
      · exact idle
    · split
      · exact idle
      · exact reaskClaim_beside s target
    · exact settleDouble_beside s target

end

end Sys2Proof.Machine
end

section
/-! Double holds: the step on the claim itself, and what it comes to behind steps on the others. -/

namespace Sys2Proof.Machine

/-! ## Events raised -/

/-- An event is raised on the way between two states. -/
def Raised (s t : State) (e : Event) : Prop := ∃ v : State, Logs s.cpt v.cpt ∧ Logs (v.emit e).cpt t.cpt

section
variable {s t u : State} {e : Event}

theorem Raised.reports (h : Raised s t e) : Reports s t e := by
  obtain ⟨v, before, after⟩ := h
  exact .of_emit before after

theorem Raised.before (h : Raised t u e) (k : Logs s.cpt t.cpt) : Raised s u e := by
  obtain ⟨v, before, after⟩ := h
  exact ⟨v, k.trans before, after⟩

theorem Raised.after (h : Raised s t e) (k : Logs t.cpt u.cpt) : Raised s u e := by
  obtain ⟨v, before, after⟩ := h
  exact ⟨v, before, after.trans k⟩

end

/-! ## A change of an entry told to its holders (R94, R95) -/

/-- A change of an entry has been handed to the order and the bay that it concerns. -/
def Told (s u : State) (c : OwnClaim) (st : ClaimState) (left : Bool) : Prop :=
  (∀ a, s.moc.active = some a → .order ∈ c.holders → .orderClaim a.ord.id c.target st left ∈ u.work)
    ∧ ∀ bay, ownBay s c.target = some bay → .truckClaim bay ∈ u.work

section
variable {s s' t u : State} {c : OwnClaim} {q : Target} {n m : Nat}

theorem ownBay_of_image (h : t.cpt.image = s.cpt.image) (q : Target) : ownBay t q = ownBay s q := by
  rw [ownBay, h, ownBay]

theorem Told.between {st : ClaimState} {left : Bool} (h : Told s' t c st left) (moc : s'.moc = s.moc)
    (image : s'.cpt.image = s.cpt.image) (work : t.work <+: u.work) : Told s u c st left := by
  obtain ⟨order, bay⟩ := h
  exact ⟨fun a ha ho => work.subset (order a (moc ▸ ha) ho),
    fun b hb => work.subset (bay b ((ownBay_of_image image _).trans hb))⟩

theorem claimChanged_told (s : State) (c : OwnClaim) (st : ClaimState) (left : Bool) :
    Told s (claimChanged s c.target st left c.holders) c st left := by
  have told : Told ((s.compute).emit (.claimState c.target (some st))) (claimChanged s c.target st left c.holders) c st
      left := by
    unfold claimChanged
    rw [handChange_eq]
    refine ⟨fun a ha ho => ?_, fun bay hb => ?_⟩
    · refine List.mem_append_right _ (List.mem_append_right _ ?_)
      rw [if_pos (List.contains_iff_mem.mpr ho), ha]
      exact List.mem_singleton_self _
    · refine List.mem_append_right _ (List.mem_append_left _ ?_)
      rw [hb]
      exact List.mem_singleton_self _
  exact told.between (compute_moc s) (((Moves.refl (cmd := false) s).compute.emit _).image) List.prefix_rfl

/-! ## A HELD entry that yields (R86, R90, R92) -/

/-- A HELD entry has yielded: it waits, its conflict and double holds are gone, its holders are told, its RELEASE is
queued where `room` more frames would have found room, and the release window of its bay stands open. -/
structure Yielded (room : Nat) (s u : State) (c : OwnClaim) : Prop where
  claim : findClaim u c.target = some { c with state := .waiting }
  conflict : ∀ z, c.target = .zone z → z ∉ u.clu.conflicts
  double : ∀ k, c.target = .slot k → ∀ j, (k, j) ∉ u.clu.doubleHeld
  told : Told s u c .waiting true
  released : s.rlc.queue.length + room < 16 → .fixed (.release c.target) ∈ u.rlc.queue
  window : ∀ bay, ownBay s c.target = some bay → u.rlc.truckWin.get bay = releaseOpened
  cleared : ∀ z, c.target = .zone z → z ∈ s.clu.conflicts → Raised s u (.zoneConflictClear z)

theorem Yielded.after (h : Yielded n s t c) (k : Beside c.target m t u) : Yielded n s u c where
  claim := k.claim.trans h.claim
  conflict z hz := mt (k.conflict z hz).mp (h.conflict z hz)
  double i hi j := mt (k.double i hi j).mp (h.double i hi j)
  told := h.told.between rfl rfl k.work
  released room := k.queue.subset (h.released room)
  window bay hb := k.windows bay (h.window bay hb)
  cleared z hz hc := (h.cleared z hz hc).after k.logs

theorem Yielded.before (h : Yielded n t u c) (k : Beside c.target m s t) : Yielded (n + m) s u c where
  claim := h.claim
  conflict := h.conflict
  double := h.double
  told := h.told.between k.moc k.image List.prefix_rfl
  released room := h.released (by have := k.length; omega)
  window bay hb := h.window bay ((ownBay_of_image k.image _).trans hb)
  cleared z hz hc := (h.cleared z hz ((k.conflict z hz).mpr hc)).before k.logs

theorem endConflict_raised {z : Nat} (h : z ∈ s.clu.conflicts) : Raised s (endConflict s z) (.zoneConflictClear z) := by
  unfold endConflict
  rw [if_pos (List.contains_iff_mem.mpr h)]
  refine ⟨{ s with clu.conflicts := s.clu.conflicts.filter fun k => k != z }, .refl _, compute_logs _⟩

theorem startConflict_raised {z : Nat} (h : z ∉ s.clu.conflicts) : Raised s (startConflict s z) (.zoneConflict z) := by
  unfold startConflict
  rw [if_neg (mt List.contains_iff_mem.mp h)]
  refine ⟨{ s with clu.conflicts := s.clu.conflicts ++ [z] }, .refl _, compute_logs _⟩

theorem endConflict_not_mem (s : State) (z : Nat) : z ∉ (endConflict s z).clu.conflicts := by
  rw [endConflict_conflicts]
  simp

theorem startConflict_clu (s : State) (z : Nat) :
    z ∈ (startConflict s z).clu.conflicts ∧ (startConflict s z).clu.claims = s.clu.claims := by
  unfold startConflict
  split
  · exact ⟨List.contains_iff_mem.mp ‹_›, rfl⟩
  · rw [compute_clu]
    exact ⟨by simp, rfl⟩

theorem releasingBay_rlc (s : State) (q : Target) : (releasingBay s q).rlc.queue = s.rlc.queue := by
  unfold releasingBay
  cases ownBay s q <;> rfl

theorem leaveHeld_queue (s : State) (q : Target) : (leaveHeld s q).rlc.queue = s.rlc.queue := by
  cases q with
  | zone z => rw [leaveHeld_zone, endConflict_rlc, releasingBay_rlc]
  | slot k => rw [leaveHeld_slot]; exact releasingBay_rlc s _
  | other k id => rw [leaveHeld_other, releasingBay_rlc]

/-- An entry as it leaves HELD: what goes with it is gone (R86, R91, R92). -/
theorem leaveHeld_gone (s : State) (q : Target) :
    (∀ z, q = .zone z → z ∉ (leaveHeld s q).clu.conflicts
        ∧ (z ∈ s.clu.conflicts → Raised s (leaveHeld s q) (.zoneConflictClear z)))
      ∧ ∀ k, q = .slot k → ∀ j, (k, j) ∉ (leaveHeld s q).clu.doubleHeld := by
  obtain ⟨released, clu⟩ := releasingBay_beside (t := .other 0 0) s q
  refine ⟨fun z hz => ?_, fun k hk j => ?_⟩
  · subst hz
    rw [leaveHeld_zone]
    exact ⟨endConflict_not_mem _ _, fun hc => (endConflict_raised (clu ▸ hc)).before released.logs⟩
  · subst hk
    rw [leaveHeld_slot]
    simp

theorem findClaim_putClaim_same {f : OwnClaim → OwnClaim} (hf : ∀ c, (f c).target = c.target)
    (found : findClaim s q = some c) : findClaim (putClaim s q f) q = some (f c) := by
  rw [findClaim_putClaim s q q f hf, if_pos rfl, found]
  rfl

theorem yieldClaim_yielded (found : findClaim s c.target = some c) (held : c.state = .held) :
    Yielded 0 s (yieldClaim s c) c := by
  let w := putClaim s c.target fun c => { c with state := .waiting }
  let l := leaveHeld w c.target
  let o := l.offer (.fixed (.release c.target))
  have yields : yieldClaim s c = claimChanged o c.target .waiting true c.holders := by
    simp only [yieldClaim, held, if_true, beq_self_eq_true]
    rfl
  have changed : Beside c.target 0 o (yieldClaim s c) := yields ▸ claimChanged_beside o _ _ _ _
  have behind : Beside c.target 1 l (yieldClaim s c) := (offer_beside l _).trans changed
  obtain ⟨zone, slot⟩ := leaveHeld_gone w c.target
  have image : l.cpt.image = s.cpt.image := (leaveHeld_moves (cmd := false) (.refl w) c.target).image
  refine ⟨?_, fun z hz => ?_, fun k hk j => ?_, ?_, fun room => ?_, fun bay hb => ?_, fun z hz hc => ?_⟩
  · have waits : findClaim w c.target = some { c with state := .waiting } :=
      findClaim_putClaim_same (f := fun c => { c with state := .waiting }) (fun _ => rfl) found
    have same : findClaim l c.target = findClaim w c.target := by rw [findClaim, leaveHeld_claims, findClaim]
    rw [behind.claim, same, waits]
  · exact mt (behind.conflict z hz).mp (zone z hz).1
  · exact mt (behind.double k hk j).mp (slot k hk j)
  · have moc : o.moc = s.moc := (offer_moc l _).trans (leaveHeld_moc w _)
    rw [yields]
    exact (claimChanged_told o c .waiting true).between moc (by rw [offer_cpt]; exact image) List.prefix_rfl
  · refine changed.queue.subset ?_
    have short : l.rlc.queue.length < 16 := by
      rw [leaveHeld_queue]
      exact room
    rw [(offer_joins l _ (by simp [isRefilled]) short).1]
    exact List.mem_append_right _ (List.mem_singleton_self _)
  · exact behind.windows bay (leaveHeld_releases (.inl hb))
  · exact ((zone z hz).2 hc).after behind.logs

/-! ## Zones (R90, R91) -/

/-- A peer holds the zone too, and it lies outside the own footprint (R90). -/
def ZoneLeft (u : State) (img : Image) (zn : Zone) (q : Target) : Prop :=
  (∃ p ∈ u.ptb.peers, HoldsTarget p q) ∧ (u.sample.x + img.right < zn.x0 ∨ zn.x1 < u.sample.x - img.left)

/-- A peer that holds the zone too meets it with its footprint (R91). -/
def ZoneMet (u : State) (img : Image) (zn : Zone) (q : Target) : Prop :=
  ∃ p ∈ u.ptb.peers, HoldsTarget p q ∧ p.x - (peerProfile img p).left ≤ zn.x1
    ∧ zn.x0 ≤ p.x + (peerProfile img p).right

theorem mem_holdingPeers {p : Peer} : p ∈ holdingPeers s q ↔ p ∈ s.ptb.peers ∧ HoldsTarget p q := by
  simp only [holdingPeers, entriesOn, takenHeld, HoldsTarget, List.mem_filter, List.any_eq_true, beq_iff_eq,
    Bool.or_eq_true, and_assoc]

theorem overlaps_iff (a b : Span) : a.overlaps b = true ↔ a.lo ≤ b.hi ∧ b.lo ≤ a.hi := decide_eq_true_iff

theorem settleZone_cases {img : Image} {z : Nat} {zn : Zone} (hz : zoneAt img z = some zn) :
    (ZoneLeft s img zn c.target → settleZone s img c z = yieldClaim s c)
      ∧ (¬ ZoneLeft s img zn c.target → ZoneMet s img zn c.target → settleZone s img c z = startConflict s z)
      ∧ (¬ ZoneLeft s img zn c.target → ¬ ZoneMet s img zn c.target → settleZone s img c z = endConflict s z) := by
  have held : (∃ p ∈ s.ptb.peers, HoldsTarget p c.target) ↔ holdingPeers s c.target ≠ [] := by
    refine ⟨fun ⟨p, hp, holds⟩ => List.ne_nil_of_mem (mem_holdingPeers.mpr ⟨hp, holds⟩), fun some_hold => ?_⟩
    obtain ⟨p, hp⟩ := List.exists_mem_of_ne_nil _ some_hold
    exact ⟨p, mem_holdingPeers.mp hp⟩
  have outside : (!(footprint img s.sample.x).overlaps zn.xs) = true
      ↔ s.sample.x + img.right < zn.x0 ∨ zn.x1 < s.sample.x - img.left := by
    rw [Bool.not_eq_true', ← Bool.not_eq_true, overlaps_iff]
    simp only [footprint, Zone.xs]
    omega
  have met : ((holdingPeers s c.target).any fun p => (peerFootprint img p).overlaps zn.xs) = true
      ↔ ZoneMet s img zn c.target := by
    simp only [List.any_eq_true, mem_holdingPeers, overlaps_iff, peerFootprint, Zone.xs, ZoneMet, and_assoc]
  simp only [settleZone, hz]
  refine ⟨fun ⟨peers, out⟩ => ?_, fun stays meets => ?_, fun stays apart => ?_⟩
  · rw [if_neg (held.mp peers), if_pos (outside.mpr out)]
  · have some_hold : holdingPeers s c.target ≠ [] := by
      obtain ⟨p, hp, holds, _⟩ := meets
      exact held.mp ⟨p, hp, holds⟩
    rw [if_neg some_hold, if_neg (fun out => stays ⟨held.mpr some_hold, outside.mp out⟩), if_pos (met.mpr meets)]
  · by_cases none_hold : holdingPeers s c.target = []
    · rw [if_pos none_hold]
    · rw [if_neg none_hold, if_neg (fun out => stays ⟨held.mpr none_hold, outside.mp out⟩), if_neg (mt met.mp apart)]

/-- What a double hold of a zone comes to (R90, R91). -/
def ZoneSettled (s u : State) (img : Image) (c : OwnClaim) : Prop := ∀ z zn, c.target = .zone z → zoneAt img z = some zn →
  (ZoneLeft u img zn c.target → findClaim u c.target = some { c with state := .waiting } ∧ z ∉ u.clu.conflicts
      ∧ Told s u c .waiting true
      ∧ (s.rlc.queue.length ≤ 10 → .fixed (.release c.target) ∈ u.rlc.queue)
      ∧ (∀ bay, 1 ≤ bay → bay ≤ 4 → ownBay s c.target = some bay →
          u.rlc.truckWin.get bay = some { release := true, left := 5 })
      ∧ (z ∈ s.clu.conflicts → Reports s u (.zoneConflictClear z)))
    ∧ (¬ ZoneLeft u img zn c.target → findClaim u c.target = some c
      ∧ (z ∈ u.clu.conflicts ↔ ZoneMet u img zn c.target)
      ∧ (z ∉ s.clu.conflicts → ZoneMet u img zn c.target → Reports s u (.zoneConflict z))
      ∧ (z ∈ s.clu.conflicts → ¬ ZoneMet u img zn c.target → Reports s u (.zoneConflictClear z)))

/-- The double hold of one zone settled, with steps on the other claims before and behind. -/
theorem settleZone_settled {img : Image} {z : Nat} {zn : Zone} (hc : c.target = .zone z) (hz : zoneAt img z = some zn)
    (found : findClaim s c.target = some c) (held : c.state = .held) (before : Beside c.target n s t) (hn : n ≤ 5)
    (behind : Beside c.target m (settleZone t img c z) u) (ptb : u.ptb = t.ptb) (sample : u.sample = t.sample) :
    (ZoneLeft u img zn c.target → Yielded 5 s u c)
    ∧ (¬ ZoneLeft u img zn c.target → findClaim u c.target = some c
      ∧ (z ∈ u.clu.conflicts ↔ ZoneMet u img zn c.target)
      ∧ (z ∉ s.clu.conflicts → ZoneMet u img zn c.target → Raised s u (.zoneConflict z))
      ∧ (z ∈ s.clu.conflicts → ¬ ZoneMet u img zn c.target → Raised s u (.zoneConflictClear z))) := by
  have here : findClaim t c.target = some c := before.claim.trans found
  obtain ⟨yields, starts, ends⟩ := settleZone_cases (s := t) (c := c) hz
  have left : ZoneLeft u img zn c.target ↔ ZoneLeft t img zn c.target := by rw [ZoneLeft, ptb, sample, ZoneLeft]
  have met : ZoneMet u img zn c.target ↔ ZoneMet t img zn c.target := by rw [ZoneMet, ptb, ZoneMet]
  rw [left, met]
  refine ⟨fun out => ?_, fun stays => ?_⟩
  · rw [yields out] at behind
    have yielded := ((yieldClaim_yielded here held).before before).after behind
    exact { yielded with released := fun room => yielded.released (by omega) }
  · by_cases meets : ZoneMet t img zn c.target
    · rw [starts stays meets] at behind
      obtain ⟨inside, claims⟩ := startConflict_clu t z
      refine ⟨?_, iff_of_true ((behind.conflict z hc).mpr inside) meets, fun hs _ => ?_, fun _ apart => absurd meets apart⟩
      · rw [behind.claim, findClaim, claims]
        exact here
      · exact ((startConflict_raised (mt (before.conflict z hc).mp hs)).before before.logs).after behind.logs
    · rw [ends stays meets] at behind
      refine ⟨?_, iff_of_false (mt (behind.conflict z hc).mp (endConflict_not_mem t z)) meets,
        fun _ h => absurd h meets, fun hs _ => ?_⟩
      · rw [behind.claim, findClaim, endConflict_claims]
        exact here
      · exact ((endConflict_raised ((before.conflict z hc).mpr hs)).before before.logs).after behind.logs

end

end Sys2Proof.Machine
end

section
/-! Double holds of slots (R92), and the sequences of steps in which double holds are settled (R84, R87, R90). -/

namespace Sys2Proof.Machine

section
variable {s t u : State} {c : OwnClaim} {k n m : Nat}

/-! ## Zones, as stated -/

theorem ZoneSettled.of {img : Image} (held : c.state = .held) (found : findClaim s c.target = some c)
    (before : Beside c.target n s t) (hn : n ≤ 5) (image : s.cpt.image = some img)
    (behind : Beside c.target m (settleDouble t c) u) (ptb : u.ptb = t.ptb) (sample : u.sample = t.sample) :
    ZoneSettled s u img c := by
  intro z zn hc hz
  have step : settleDouble t c = settleZone t img c z := by
    rw [settleDouble, before.image, image]
    simp only [hc]
  obtain ⟨yields, stays⟩ := settleZone_settled hc hz found held before hn (step ▸ behind) ptb sample
  refine ⟨fun out => ?_, fun inside => ?_⟩
  · obtain ⟨claim, conflict, _, told, released, window, cleared⟩ := yields out
    exact ⟨claim, conflict z hc, told, fun room => released (by omega), fun bay _ _ hb => window bay hb,
      fun hs => (cleared z hc hs).reports⟩
  · obtain ⟨claim, conflict, starts, ends⟩ := stays inside
    exact ⟨claim, conflict, fun hs met => (starts hs met).reports, fun hs apart => (ends hs apart).reports⟩

/-! ## Slots -/

/-- The active order lowers on the slot (R92). -/
def Lowering (s : State) (k : Nat) : Prop :=
  ∃ a, s.moc.active = some a ∧ ((a.phase = .pickLower ∧ a.ord.source = .slot k)
    ∨ (a.phase = .placeLower ∧ a.destUse = some (.slot k)))

/-- A peer that holds the target too outranks the own claim by priority, then by serial (R92). -/
def Outranked (u : State) (serial : Nat) (c : OwnClaim) : Prop :=
  ∃ p ∈ u.ptb.peers, HoldsTarget p c.target ∧ ∃ e ∈ p.claims, e.target = c.target
    ∧ (c.prio < e.prio ∨ (e.prio = c.prio ∧ p.serial < serial))

/-- A peer of this number holds the target too. -/
def HoldsToo (u : State) (q : Target) (j : Nat) : Prop := ∃ p ∈ u.ptb.peers, HoldsTarget p q ∧ p.n = j

theorem loweringOn_iff : loweringOn s.moc k = true ↔ Lowering s k := by
  unfold loweringOn Lowering
  cases s.moc.active <;> simp

theorem outranks_iff : ((holdingPeers s c.target).any (outranksHeld s c.target c.prio)) = true
    ↔ Outranked s s.serial c := by
  simp only [List.any_eq_true, mem_holdingPeers, outranksHeld, entriesOn, List.mem_filter, beq_iff_eq, Bool.or_eq_true,
    decide_eq_true_eq, Bool.and_eq_true, Outranked, and_assoc]

theorem mem_holdingNumbers {j : Nat} : j ∈ (holdingPeers s c.target).map (·.n) ↔ HoldsToo s c.target j := by
  simp only [List.mem_map, mem_holdingPeers, HoldsToo, and_assoc]

/-- The peers that hold a slot too, by their numbers. -/
def holdingNumbers (s : State) (c : OwnClaim) : List Nat := (holdingPeers s c.target).map (·.n)

theorem settleSlot_cases :
    (Lowering s k → settleSlot s c k = keepDouble s k (holdingNumbers s c))
      ∧ (¬ Lowering s k → Outranked s s.serial c →
          settleSlot s c k = yieldClaim (keepDouble s k (holdingNumbers s c)) c)
      ∧ (¬ Lowering s k → ¬ Outranked s s.serial c →
          settleSlot s c k = tellDouble (keepDouble s k (holdingNumbers s c)) k (holdingNumbers s c)) := by
  have lowers : loweringOn (keepDouble s k (holdingNumbers s c)).moc k = true ↔ Lowering s k := loweringOn_iff
  have ranks : ((holdingPeers s c.target).any
      (outranksHeld (keepDouble s k (holdingNumbers s c)) c.target c.prio)) = true ↔ Outranked s s.serial c := outranks_iff
  unfold settleSlot
  dsimp only
  refine ⟨fun lowering => if_pos (lowers.mpr lowering), fun free outranked => ?_, fun free stays => ?_⟩
  · exact (if_neg (mt lowers.mp free)).trans (if_pos (ranks.mpr outranked))
  · exact (if_neg (mt lowers.mp free)).trans (if_neg (mt ranks.mp stays))

theorem mem_keepDouble {l : List Nat} {j : Nat} :
    (k, j) ∈ (keepDouble s k l).clu.doubleHeld ↔ (k, j) ∈ s.clu.doubleHeld ∧ j ∈ l := by
  simp [keepDouble]

/-- The double holds told of a slot are those of the peers that hold it, and each new one is reported (R92). -/
theorem tellDouble_spec (s : State) (k : Nat) (l : List Nat) :
    (∀ j, (k, j) ∈ (tellDouble s k l).clu.doubleHeld ↔ (k, j) ∈ s.clu.doubleHeld ∨ j ∈ l)
      ∧ (tellDouble s k l).clu.claims = s.clu.claims
      ∧ ∀ j ∈ l, (k, j) ∉ s.clu.doubleHeld → Raised s (tellDouble s k l) (.slotDoubleHold k j) := by
  have told : ∀ (ns : List Nat) (v : State),
      let w := ns.foldl (fun v n => v.emit (.slotDoubleHold k n)) v
      w.clu = v.clu ∧ Logs v.cpt w.cpt ∧ ∀ j ∈ ns, Raised v w (.slotDoubleHold k j) := by
    intro ns
    induction ns with
    | nil => exact fun v => ⟨rfl, .refl _, fun _ h => absurd h List.not_mem_nil⟩
    | cons n ns ih =>
      intro v
      obtain ⟨clu, logs, raised⟩ := ih (v.emit (.slotDoubleHold k n))
      refine ⟨clu, (offerEvent_logs _ _ _).trans logs, fun j hj => ?_⟩
      rcases List.mem_cons.mp hj with rfl | hj
      · exact ⟨v, .refl _, logs⟩
      · exact (raised j hj).before (offerEvent_logs _ _ _)
  let new := l.filter fun n => !s.clu.doubleHeld.contains (k, n)
  obtain ⟨clu, _, raised⟩ :=
    told new { s with clu := { s.clu with doubleHeld := s.clu.doubleHeld ++ new.map fun n => (k, n) } }
  have fresh {j : Nat} : j ∈ new ↔ j ∈ l ∧ (k, j) ∉ s.clu.doubleHeld := by
    simp [new, List.mem_filter]
  refine ⟨fun j => ?_, (congrArg Clu.claims clu).trans rfl, fun j hj unheld => raised j (fresh.mpr ⟨hj, unheld⟩)⟩
  have held : (tellDouble s k l).clu.doubleHeld = s.clu.doubleHeld ++ new.map fun n => (k, n) :=
    congrArg Clu.doubleHeld clu
  rw [held, List.mem_append, List.mem_map]
  constructor
  · rintro (old | ⟨n, hn, e⟩)
    · exact .inl old
    · cases e
      exact .inr (fresh.mp hn).1
  · rintro (old | hj)
    · exact .inl old
    · by_cases old : (k, j) ∈ s.clu.doubleHeld
      · exact .inl old
      · exact .inr ⟨j, fresh.mpr ⟨hj, old⟩, rfl⟩

/-- What a double hold of a slot comes to (R92). -/
def SlotSettled (s u : State) (c : OwnClaim) : Prop := ∀ k, c.target = .slot k →
  (Outranked u s.serial c → ¬ Lowering s k → findClaim u c.target = some { c with state := .waiting }
      ∧ Told s u c .waiting true ∧ (∀ j, (k, j) ∉ u.clu.doubleHeld)
      ∧ (s.rlc.queue.length ≤ 10 → .fixed (.release c.target) ∈ u.rlc.queue))
    ∧ (¬ Outranked u s.serial c ∨ Lowering s k → findClaim u c.target = some c)
    ∧ (¬ Outranked u s.serial c → ¬ Lowering s k → ∀ j, ((k, j) ∈ u.clu.doubleHeld ↔ HoldsToo u c.target j)
      ∧ (HoldsToo u c.target j → (k, j) ∉ s.clu.doubleHeld → Reports s u (.slotDoubleHold k j)))
    ∧ (Lowering s k → ∀ j, (k, j) ∈ u.clu.doubleHeld ↔ (k, j) ∈ s.clu.doubleHeld ∧ HoldsToo u c.target j)

theorem SlotSettled.of {img : Image} (held : c.state = .held) (found : findClaim s c.target = some c)
    (before : Beside c.target n s t) (hn : n ≤ 5) (image : s.cpt.image = some img)
    (behind : Beside c.target m (settleDouble t c) u) (ptb : u.ptb = t.ptb) : SlotSettled s u c := by
  intro k hc
  have step : settleDouble t c = settleSlot t c k := by
    rw [settleDouble, before.image, image]
    simp only [hc]
  rw [step] at behind
  obtain ⟨lowers, yields, tells⟩ := settleSlot_cases (s := t) (c := c) (k := k)
  have lowering : Lowering t k ↔ Lowering s k := by rw [Lowering, before.moc, Lowering]
  have outranked : Outranked t t.serial c ↔ Outranked u s.serial c := by rw [Outranked, Outranked, ptb, before.serial]
  have holds (j : Nat) : j ∈ holdingNumbers t c ↔ HoldsToo u c.target j := by
    rw [HoldsToo, ptb]
    exact mem_holdingNumbers
  rw [lowering] at lowers yields tells
  rw [outranked] at yields tells
  have here : findClaim t c.target = some c := before.claim.trans found
  have old (j : Nat) := before.double k hc j
  have final (j : Nat) := behind.double k hc j
  by_cases low : Lowering s k
  · rw [lowers low] at behind final
    refine ⟨fun _ free => absurd low free, fun _ => behind.claim.trans here, fun _ free => absurd low free,
      fun _ j => ?_⟩
    rw [final, mem_keepDouble, old, holds]
  by_cases out : Outranked u s.serial c
  · rw [yields low out] at behind
    obtain ⟨claim, conflict, double, told, released, window, cleared⟩ :=
      yieldClaim_yielded (s := keepDouble t k (holdingNumbers t c)) here held
    have yielded : Yielded 0 t (yieldClaim (keepDouble t k (holdingNumbers t c)) c) c :=
      ⟨claim, conflict, double, told, released, window, cleared⟩
    have all := (yielded.before before).after behind
    exact ⟨fun _ _ => ⟨all.claim, all.told, all.double k hc, fun room => all.released (by omega)⟩,
      fun h => (h.elim (absurd out) fun h => absurd h low), fun h => absurd out h, fun h => absurd h low⟩
  · rw [tells low out] at behind final
    obtain ⟨double, claims, raised⟩ := tellDouble_spec (keepDouble t k (holdingNumbers t c)) k (holdingNumbers t c)
    refine ⟨fun h => absurd h out, fun _ => ?_, fun _ _ j => ⟨?_, fun hj new => ?_⟩, fun h => absurd h low⟩
    · rw [behind.claim, findClaim, claims]
      exact here
    · rw [final, double, mem_keepDouble, holds]
      exact ⟨fun h => h.elim And.right id, .inr⟩
    · have unkept : (k, j) ∉ (keepDouble t k (holdingNumbers t c)).clu.doubleHeld := fun h =>
        new ((old j).mp (mem_keepDouble.mp h).1)
      exact (((raised j ((holds j).mpr hj) unkept).before (t := keepDouble t k (holdingNumbers t c)) before.logs).after
        behind.logs).reports

end

end Sys2Proof.Machine
end

section
/-! Where double holds are settled (R84, R87, R90, R92): at a BEACON, a settle timer, a position sample, a phase change. -/

namespace Sys2Proof.Machine

section
variable {s t u v : State} {c : OwnClaim} {q : Target} {n m : Nat}

/-! ## Steps apart from the claims -/

/-- `u` differs from `s` apart from the claims and the line: hand-ons join the work, and events the log. -/
structure Apart (s u : State) : Prop where
  clu : u.clu = s.clu
  rlc : u.rlc = s.rlc
  moc : u.moc = s.moc
  serial : u.serial = s.serial
  image : u.cpt.image = s.cpt.image
  work : s.work <+: u.work
  logs : Logs s.cpt u.cpt

theorem Apart.refl (s : State) : Apart s s := ⟨rfl, rfl, rfl, rfl, rfl, List.prefix_rfl, .refl _⟩

theorem Apart.trans (h : Apart s t) (k : Apart t u) : Apart s u :=
  ⟨k.clu.trans h.clu, k.rlc.trans h.rlc, k.moc.trans h.moc, k.serial.trans h.serial, k.image.trans h.image,
    h.work.trans k.work, h.logs.trans k.logs⟩

theorem Apart.beside (h : Apart s u) : Beside q 0 s u :=
  .of_clu h.clu h.work h.rlc h.moc h.serial h.image h.logs

theorem emit_apart (s : State) (e : Event) : Apart s (s.emit e) :=
  ⟨rfl, rfl, rfl, rfl, emit_image s e, List.prefix_rfl, offerEvent_logs _ _ _⟩

theorem hand_apart (s : State) (w : Work) : Apart s (s.hand w) :=
  ⟨rfl, rfl, rfl, rfl, rfl, List.prefix_append _ _, .refl _⟩

theorem compute_apart (s : State) : Apart s s.compute :=
  ⟨compute_clu s, compute_rlc s, compute_moc s, compute_serial s, (Moves.refl (cmd := false) s).compute.image,
    by rw [compute_work], compute_logs s⟩

/-! ## A list of targets tested -/

theorem findClaim_of_mem (h : ClaimsOk s.clu) (hc : c ∈ s.clu.claims) : findClaim s c.target = some c := by
  obtain ⟨_, nodup⟩ := h
  have isSome : (s.clu.claims.find? fun d => d.target == c.target).isSome = true :=
    List.find?_isSome.mpr ⟨c, hc, by simp⟩
  obtain ⟨d, hd⟩ := Option.isSome_iff_exists.mp isSome
  have same : d = c := List.inj_on_of_nodup_map nodup (List.mem_of_find?_eq_some hd) hc (findClaim_target hd)
  exact same ▸ hd

/-- A test of own entries: of one target at a time, beside the others, and of a HELD entry for its double hold. -/
structure TestsHeld (f : State → Target → State) : Prop where
  moves : ∀ s q, Moves false s (f s q)
  beside : ∀ s {q t}, q ≠ t → Beside t 1 s (f s q)
  held : ∀ {s c}, findClaim s c.target = some c → c.state = .held → f s c.target = settleDouble s c

theorem retestClaim_testsHeld : TestsHeld retestClaim where
  moves s q := retestClaim_moves (.refl s) q
  beside s := retestClaim_beside s
  held found held := by simp only [retestClaim, found, held]

theorem TestsHeld.foldl_beside {f : State → Target → State} (hf : TestsHeld f) {l : List Target} (hl : q ∉ l) (s : State) :
    Beside q l.length s (l.foldl f s) := by
  induction l generalizing s with
  | nil => exact .refl s
  | cons p l ih =>
    have other : p ≠ q := fun e => hl (e ▸ List.mem_cons_self)
    have rest : q ∉ l := fun h => hl (List.mem_cons_of_mem _ h)
    exact ((hf.beside s other).trans (ih rest _)).mono (by rw [List.length_cons]; omega)

/-- Among at most 6 targets tested, a HELD entry is settled as its own test settles it. -/
theorem TestsHeld.settled {f : State → Target → State} (hf : TestsHeld f) {img : Image} {l : List Target}
    (nodup : l.Nodup) (h6 : l.length ≤ 6) (hl : c.target ∈ l) (held : c.state = .held)
    (found : findClaim s c.target = some c) (image : s.cpt.image = some img) (before : Beside c.target 0 s v)
    (behind : Beside c.target 0 (l.foldl f v) u) (moves : Moves false (l.foldl f v) u) :
    ZoneSettled s u img c ∧ SlotSettled s u c := by
  obtain ⟨l1, l2, rfl⟩ := List.append_of_mem hl
  have h1 : c.target ∉ l1 := fun h => by
    have := List.disjoint_of_nodup_append nodup h
    simp at this
  have h2 : c.target ∉ l2 := (List.nodup_cons.mp (List.nodup_append.mp nodup).2.1).1
  rw [List.foldl_append, List.foldl_cons] at behind moves
  have reached : Beside c.target l1.length s (l1.foldl f v) :=
    (before.trans (hf.foldl_beside h1 v)).mono (by omega)
  have few : l1.length ≤ 5 := by
    simp only [List.length_append, List.length_cons] at h6
    omega
  have own := hf.held (reached.claim.trans found) held
  rw [own] at behind moves
  have frame := ((settleDouble_moves (cmd := false) (.refl (l1.foldl f v)) c).trans
    ((Moves.foldl hf.moves l2 (.refl _)).trans moves)).frame
  have rest := (hf.foldl_beside h2 (settleDouble (l1.foldl f v) c)).trans behind
  exact ⟨.of held found reached few image rest frame.ptb frame.sample, .of held found reached few image rest frame.ptb⟩

/-! ## At a BEACON of a known peer (R84, R87) -/

theorem sourceAgain_apart (s : State) : Apart s (sourceAgain s) := by
  unfold sourceAgain
  split
  · exact .refl s
  · split
    · exact hand_apart s _
    · exact .refl s

theorem checkBeaconSeq_apart (s : State) (k serial seq : Nat) :
    HandOnFrame { s with smu := (checkBeaconSeq s k serial seq).smu } (checkBeaconSeq s k serial seq)
      ∧ Apart s (checkBeaconSeq s k serial seq) := by
  have tracked (x : State) (h : HandOnFrame s x) (b : Apart s x) (t : Track) :
      HandOnFrame { s with smu := (putTrack x t).smu } (putTrack x t) ∧ Apart s (putTrack x t) :=
    ⟨h.with_smu _, ⟨b.clu, b.rlc, b.moc, b.serial, b.image, b.work, b.logs⟩⟩
  have told (x : State) (e : Event) (h : HandOnFrame { s with smu := x.smu } x ∧ Apart s x) :
      HandOnFrame { s with smu := (x.emit e).smu } (x.emit e) ∧ Apart s (x.emit e) :=
    ⟨h.1.trans (Move.emit (b := false) x e).frame, h.2.trans (emit_apart x e)⟩
  unfold checkBeaconSeq
  split
  · exact ⟨.refl s, .refl s⟩
  dsimp only
  split
  · split
    · exact tracked _ (Move.emit (b := false) s _).frame (emit_apart s _) _
    · exact told _ _ (tracked _ (Move.emit (b := false) s _).frame (emit_apart s _) _)
  split
  · exact tracked _ (.refl s) (.refl s) _
  · exact told _ _ (tracked _ (.refl s) (.refl s) _)

theorem reports_apart (s : State) (p x y : Peer) : Apart s (reportField (reportBack s p) x y) := by
  have back : Apart s (reportBack s p) := by
    unfold reportBack
    split
    · exact .refl s
    · exact emit_apart s _
  unfold reportField
  split
  · exact back.trans (emit_apart _ _)
  · exact back

/-- The state after a BEACON of a known peer is recorded and its sequence checked, before anything is handed on. -/
def beaconTaken (s : State) (p : Peer) (k serial : Nat) (b : Beacon) : State :=
  checkBeaconSeq (putPeer (reportField (reportBack s p) p ((p.revived s.now).stated s.cpt.image s.now b))
    ((p.revived s.now).stated s.cpt.image s.now b)) k serial b.noticeSeq

theorem beaconTaken_apart (s : State) (p : Peer) (k serial : Nat) (b : Beacon) :
    HandOnFrame { s with ptb := (beaconTaken s p k serial b).ptb, smu := (beaconTaken s p k serial b).smu }
      (beaconTaken s p k serial b) ∧ Apart s (beaconTaken s p k serial b) := by
  let r := (p.revived s.now).stated s.cpt.image s.now b
  let told := reportField (reportBack s p) p r
  let put := putPeer told r
  have reported : Moves false s told := reportField_moves (reportBack_moves (.refl s) p) p r
  have recorded : HandOnFrame { s with ptb := put.ptb } put := reported.frame.with_ptb put.ptb
  have placed : Apart s put := (reports_apart s p p r).trans ⟨rfl, rfl, rfl, rfl, rfl, List.prefix_rfl, .refl _⟩
  obtain ⟨checked, apart⟩ := checkBeaconSeq_apart put k serial b.noticeSeq
  have ptb : (checkBeaconSeq put k serial b.noticeSeq).ptb = put.ptb := checked.ptb
  refine ⟨?_, placed.trans apart⟩
  change HandOnFrame { s with ptb := (checkBeaconSeq put k serial b.noticeSeq).ptb, smu := _ } _
  rw [ptb]
  exact (recorded.with_smu _).trans checked

theorem rxBeacon_known {k : Nat} {p : Peer} {b : Beacon} (hp : peerAt s.ptb k = some p)
    (hr : Routed s k p.serial (.beacon b)) :
    exec (.rxBeacon k p.serial b) s = .next (State.finish (recordChanged (beaconTaken s p k p.serial b))) := by
  have known : knownPeer s k p.serial = some p := knownPeer_eq_some.mpr ⟨hp, rfl⟩
  change execRxBeacon k p.serial b s = _
  rw [execRxBeacon, receive_routed hr, takeBeacon]
  simp only [known]
  rfl

theorem recordChanged_running (hn : s.rlc.nodeState = .running) :
    recordChanged s = sourceAgain ((s.clu.claims.map (·.target)).foldl retestClaim s.compute) := by
  rw [recordChanged, copiesChanged, retestClaims, if_pos (by rw [compute_rlc]; exact hn), compute_clu]

/-- Every HELD entry is settled where a record has changed in RUNNING (R84, R87). -/
theorem recordChanged_settled {img : Image} (hn : t.rlc.nodeState = .running) (before : Apart s t)
    (claims : ClaimsOk s.clu) (image : s.cpt.image = some img) (hc : c ∈ s.clu.claims) (held : c.state = .held) :
    ZoneSettled s (recordChanged t) img c ∧ SlotSettled s (recordChanged t) c := by
  rw [recordChanged_running hn, before.clu]
  obtain ⟨h6, nodup⟩ := claims
  exact retestClaim_testsHeld.settled nodup (by rw [List.length_map]; exact h6) (List.mem_map.mpr ⟨c, hc, rfl⟩) held
    (findClaim_of_mem ⟨h6, nodup⟩ hc) image (before.trans (compute_apart t)).beside (sourceAgain_apart _).beside
    (sourceAgain_moves (.refl _))

/-- At a BEACON of a known peer in RUNNING every HELD entry is settled. -/
theorem rxBeacon_settles {img : Image} {k : Nat} {p : Peer} {b : Beacon} (hn : s.rlc.nodeState = .running)
    (claims : ClaimsOk s.clu) (image : s.cpt.image = some img) (hp : peerAt s.ptb k = some p)
    (hr : Routed s k p.serial (.beacon b)) :
    ∃ u, exec (.rxBeacon k p.serial b) s = .next (State.finish u)
      ∧ HandOnFrame { s with ptb := u.ptb, smu := u.smu } u
      ∧ ∀ c ∈ s.clu.claims, c.state = .held → ZoneSettled s u img c ∧ SlotSettled s u c := by
  obtain ⟨recorded, apart⟩ := beaconTaken_apart s p k p.serial b
  have changed := (recordChanged_moves (cmd := false) (.refl (beaconTaken s p k p.serial b))).frame
  refine ⟨_, rxBeacon_known hp hr, ?_, fun c hc held =>
    recordChanged_settled (apart.rlc ▸ hn) apart claims image hc held⟩
  rw [changed.ptb, changed.smu]
  exact recorded.trans changed

end

end Sys2Proof.Machine
end

section
/-! Where double holds are settled: at the end of a settle timer (R82, R84), and at a phase change (R92). -/

namespace Sys2Proof.Machine

section
variable {s t u v : State} {c : OwnClaim} {q : Target} {img : Image}

/-! ## At the end of a settle timer (R82, R84) -/

theorem exists_other_target (q : Target) : ∃ t, q ≠ t := by
  by_cases h : q = .zone 0
  · exact ⟨.zone 1, by simp [h]⟩
  · exact ⟨.zone 0, h⟩

/-- The entry on a target, made HELD. -/
def nowHeld (s : State) (c : OwnClaim) : State := putClaim s c.target fun d => { d with state := .held }

theorem settleClaim_eq (found : findClaim s c.target = some c) :
    settleClaim s c = settleDouble (claimChanged (nowHeld s c) c.target .held false c.holders)
      { c with state := .held } := by
  have here : findClaim (nowHeld s c) c.target = some { c with state := .held } :=
    findClaim_putClaim_same (fun _ => rfl) found
  have told : findClaim (claimChanged (nowHeld s c) c.target .held false c.holders) c.target
      = some { c with state := .held } := (claimChanged_beside (nowHeld s c) _ _ _ _).claim.trans here
  exact retestClaim_testsHeld.held (c := { c with state := .held }) told rfl

/-- At the end of its settle timer an ASKING entry becomes HELD, its holders are told, and it is settled. -/
theorem settleTimerExpiry_settles (hn : s.rlc.nodeState = .running) (claims : ClaimsOk s.clu)
    (image : s.cpt.image = some img) (hc : c ∈ s.clu.claims) (asking : c.state = .asking) :
    ∃ u, exec (.settleTimerExpiry c.target) s = .next (State.finish u) ∧ HandOnFrame { s with now := u.now } u
      ∧ Told s u c .held false ∧ ZoneSettled s u img { c with state := .held }
      ∧ SlotSettled s u { c with state := .held } := by
  let c' : OwnClaim := { c with state := .held }
  let r := s.reach (c.askedAt + 300)
  let w := nowHeld r c
  let x := claimChanged w c.target .held false c.holders
  have found : findClaim r c.target = some c := findClaim_of_mem claims hc
  have here : findClaim w c'.target = some c' := findClaim_putClaim_same (fun _ => rfl) found
  have changed : Moves false w x := claimChanged_moves (.refl w) _ _ _ _
  have settled : Moves false x (settleDouble x c') := settleDouble_moves (.refl x) c'
  have before : Beside c'.target 0 w x := claimChanged_beside w _ _ _ _
  have work : x.work <+: (settleDouble x c').work := by
    obtain ⟨other, differs⟩ := exists_other_target c'.target
    exact (settleDouble_beside x differs).work
  have frame : HandOnFrame r (settleDouble x c') :=
    (show HandOnFrame r w from ⟨rfl, rfl, rfl, rfl, rfl, rfl, rfl, rfl, .inl rfl, rfl, rfl, rfl⟩).trans
      (changed.trans settled).frame
  refine ⟨settleDouble x c', ?_, ?_, ?_, ?_, ?_⟩
  · change execSettleTimerExpiry c.target s = _
    have all : s.rlc.nodeState = .running ∧ c.state = .asking := ⟨hn, asking⟩
    simp only [execSettleTimerExpiry, findClaim_of_mem claims hc, if_pos all]
    rw [settleClaim_eq found]
  · rw [frame.now]
    exact frame
  · exact (claimChanged_told w c .held false).between rfl rfl work
  · exact ZoneSettled.of (s := w) rfl here before (Nat.zero_le _) image (.refl _) settled.frame.ptb settled.frame.sample
  · exact SlotSettled.of (s := w) rfl here before (Nat.zero_le _) image (.refl _) settled.frame.ptb

/-! ## The HELD entries of one kind of target settled again -/

/-- The test of the entry on a target where it is HELD. -/
def retestHeld (s : State) (q : Target) : State :=
  (findClaim s q).elim s fun d => if d.state = .held then settleDouble s d else s

theorem retestHeld_testsHeld : TestsHeld retestHeld where
  moves s q := by
    unfold retestHeld
    cases findClaim s q with
    | none => exact .refl s
    | some d =>
      simp only [Option.elim_some]
      split
      · exact settleDouble_moves (.refl s) d
      · exact .refl s
  beside s q t hq := by
    unfold retestHeld
    cases hd : findClaim s q with
    | none => exact (Beside.refl s).mono (Nat.zero_le 1)
    | some d =>
      simp only [Option.elim_some]
      split
      · exact settleDouble_beside s (findClaim_target hd ▸ hq)
      · exact (Beside.refl s).mono (Nat.zero_le 1)
  held found held := by simp only [retestHeld, found, Option.elim_some, held, if_true]

/-- A target is a zone. -/
def zoneTarget : Target → Bool
  | .zone _ => true
  | .slot _ => false
  | .other _ _ => false

/-- A target is a slot. -/
def slotTarget : Target → Bool
  | .zone _ => false
  | .slot _ => true
  | .other _ _ => false

/-- The targets of one kind on which an own entry is HELD. -/
def heldTargets (kind : Target → Bool) (s : State) : List Target :=
  (s.clu.claims.filter fun c => c.state == .held && kind c.target).map (·.target)

theorem heldTargets_ok (kind : Target → Bool) (h : ClaimsOk s.clu) :
    (heldTargets kind s).Nodup ∧ (heldTargets kind s).length ≤ 6 := by
  obtain ⟨h6, nodup⟩ := h
  have sub : (s.clu.claims.filter fun c => c.state == .held && kind c.target).Sublist s.clu.claims :=
    List.filter_sublist
  exact ⟨nodup.sublist (sub.map _), by rw [heldTargets, List.length_map]; exact sub.length_le.trans h6⟩

theorem mem_heldTargets {kind : Target → Bool} (hc : c ∈ s.clu.claims) (held : c.state = .held)
    (hk : kind c.target = true) : c.target ∈ heldTargets kind s :=
  List.mem_map.mpr ⟨c, List.mem_filter.mpr ⟨hc, by simp [held, hk]⟩, rfl⟩

theorem resettleSlots_eq (hn : s.rlc.nodeState = .running) :
    resettleSlots s = (heldTargets slotTarget s).foldl retestHeld s := by
  rw [resettleSlots, if_pos hn, heldTargets, List.foldl_map]
  refine congrArg₂ (List.foldl · s) (funext fun t => funext fun c => ?_) rfl
  unfold retestHeld
  cases findClaim t c.target <;> rfl

theorem resettleZones_eq (hn : s.rlc.nodeState = .running) :
    resettleZones s = (heldTargets zoneTarget s).foldl retestHeld s := by
  rw [resettleZones, if_pos hn, heldTargets, List.foldl_map]
  refine congrArg₂ (List.foldl · s) (funext fun t => funext fun c => ?_) rfl
  unfold retestHeld
  cases findClaim t c.target <;> rfl

/-- At a phase change the HELD entries of slots are settled (R92). -/
theorem resettleSlots_settled (hn : s.rlc.nodeState = .running) (claims : ClaimsOk s.clu)
    (image : s.cpt.image = some img) (hc : c ∈ s.clu.claims) (held : c.state = .held) :
    SlotSettled s (resettleSlots s) c := by
  intro k hk
  obtain ⟨nodup, h6⟩ := heldTargets_ok slotTarget claims
  have listed : c.target ∈ heldTargets slotTarget s := mem_heldTargets hc held (by rw [hk]; rfl)
  rw [resettleSlots_eq hn]
  exact (retestHeld_testsHeld.settled nodup h6 listed held (findClaim_of_mem claims hc) image (.refl s) (.refl _)
    (.refl (cmd := false) _)).2 k hk

/-- At a position sample the HELD entries of zones are settled (R90). -/
theorem resettleZones_settled (hn : s.rlc.nodeState = .running) (claims : ClaimsOk s.clu)
    (image : s.cpt.image = some img) (before : Apart s t) (hc : c ∈ s.clu.claims) (held : c.state = .held) :
    ZoneSettled s (resettleZones t) img c := by
  intro z zn hz
  obtain ⟨nodup, h6⟩ := heldTargets_ok zoneTarget claims
  have listed : c.target ∈ heldTargets zoneTarget s := mem_heldTargets hc held (by rw [hz]; rfl)
  have same : heldTargets zoneTarget t = heldTargets zoneTarget s := by rw [heldTargets, before.clu, heldTargets]
  rw [resettleZones_eq (before.rlc ▸ hn), same]
  exact (retestHeld_testsHeld.settled nodup h6 listed held (findClaim_of_mem claims hc) image before.beside (.refl _)
    (.refl (cmd := false) _)).1 z zn hz

end

end Sys2Proof.Machine
end

section
/-! Double holds of zones at a taken position sample (R90), and the obligation on double holds. -/

namespace Sys2Proof.Machine

section
variable {s t u v : State} {c : OwnClaim} {img : Image} {bytes : List Byte} {f : PositionFrame} {g : Grip}

/-! ## The weighing unit at a taken position sample (R144, R145) -/

/-- A change of the weighing unit's own state. -/
theorem wgu_apart (s : State) (w : Wgu) : Apart s { s with wgu := w } :=
  ⟨rfl, rfl, rfl, rfl, rfl, List.prefix_rfl, .refl _⟩

theorem testCapture_apart (s : State) : Apart s (testCapture s) := by
  unfold testCapture beginCapture
  dsimp only
  split
  · exact (wgu_apart s { s.wgu with
      mark := captureConditions s, capture := some { kind := .auto, startedAt := s.now, count := 0, sum := 0 } }).trans
      (emit_apart _ _)
  · exact wgu_apart s { s.wgu with mark := captureConditions s }

theorem weighChanged_apart (s : State) : Apart s (weighChanged s) :=
  (emit_apart s _).trans (testCapture_apart _)

theorem endSession_apart (s : State) (img : Image) (ss : Session) (st : WeighStatus) (w : Option Nat) :
    Apart s (endSession s img ss st w) := by
  have ended := wgu_apart s { s.wgu with session := none, last := some (resultOf img ss.kind st w) }
  unfold endSession
  dsimp only
  refine .trans (ended.trans ?_) (emit_apart _ _)
  split
  · exact hand_apart _ _
  · split
    · exact .refl _
    · exact (wgu_apart _ _).trans (weighChanged_apart _)

theorem endOrderSession_apart (s : State) : Apart s (endOrderSession s) := by
  unfold endOrderSession
  split
  · split
    · exact endSession_apart s _ _ _ _
    · exact .refl s
  · exact .refl s

theorem abandonCapture_apart (s : State) (why : AbandonReason) : Apart s (abandonCapture s why) := by
  unfold abandonCapture
  split
  · exact .refl s
  · rename_i k _
    have told : Apart s (weighChanged (State.emit { s with wgu.capture := none } (.captureAbandoned k.kind why))) :=
      (wgu_apart s { s.wgu with capture := none }).trans ((emit_apart _ _).trans (weighChanged_apart _))
    dsimp only
    split
    · exact told
    · exact told.trans (endOrderSession_apart _)

theorem weighPosition_apart (s : State) : Apart s (weighPosition s) := by
  unfold weighPosition
  refine .trans ?_ (testCapture_apart _)
  split
  · exact abandonCapture_apart s _
  · split
    · exact abandonCapture_apart s _
    · exact .refl s

theorem Moves.sample {b : Bool} (h : Moves b s t) : t.sample = s.sample :=
  h.same (fun s => s.sample) fun s t m => by
    cases m with
    | emit _ e => exact (Move.emit (b := false) s e).frame.sample
    | target _ o p x y z => exact (Move.target (b := false) s o p x y z).frame.sample
    | compute => exact (Move.compute (b := false) s).frame.sample
    | offer _ i => exact (Move.offer (b := false) s i).frame.sample
    | notice => rw [State.issueNotice, State.sample, offer_cpt, State.sample]
    | changeWindow _ bay => rw [State.openChangeWindow, State.sample, offer_cpt, State.sample]
    | _ => rfl

/-! ## The sample taken (R206 to R210) -/

theorem noteExcursion_apart (s : State) (fs : List SampleField) :
    Apart s (noteExcursion s fs) ∧ (noteExcursion s fs).ptb = s.ptb := by
  have marked (x : State) (m : Bool) : Apart x { x with cpt.excursion := m } :=
    ⟨rfl, rfl, rfl, rfl, rfl, List.prefix_rfl, ⟨fun _ h => h, fun h => ⟨le_rfl, h⟩⟩⟩
  unfold noteExcursion
  dsimp only
  split
  · exact ⟨(emit_apart s _).trans (marked _ _), rfl⟩
  · exact ⟨marked _ _, rfl⟩

theorem noteBack_apart (s : State) : Apart s (noteBack s) ∧ (noteBack s).ptb = s.ptb := by
  unfold noteBack
  split
  · exact ⟨emit_apart s _, rfl⟩
  · exact ⟨.refl s, rfl⟩

theorem holdSample_apart (s : State) (p : Sample) (k : Nat) : Apart s (holdSample s p k) :=
  ⟨rfl, rfl, rfl, rfl, rfl, List.prefix_rfl, ⟨fun _ h => h, fun h => ⟨le_rfl, h⟩⟩⟩

/-- A taken sample is judged on the state as it stands, with the skipped samples counted (R208). -/
theorem readPosition_taken (h : TakesSample s bytes f g) :
    ∃ x, Apart s x ∧ x.ptb = s.ptb ∧ readPosition s bytes = takeSample x f g := by
  obtain ⟨_, decoded, grip, ahead⟩ := h
  obtain ⟨frame, opened, position⟩ := Option.bind_eq_some_iff.mp decoded
  have kind : frame.kind = 32 := by
    by_contra other
    rw [if_neg other] at position
    cases position
  rw [if_pos kind] at position
  have read : readPosition s bytes = judgeSample s f g := by
    simp only [readPosition, opened, kind, position, usePosition, grip]
    rfl
  rw [read, judgeSample]
  cases last : s.cpt.sampleSeq with
  | none => exact ⟨s, .refl s, rfl, rfl⟩
  | some k =>
    obtain ⟨newer, near⟩ := ahead k last
    have fresh : ¬ (seqAhead k f.seq = 0 ∨ 32768 ≤ seqAhead k f.seq) := by
      rw [seqAhead]
      omega
    refine ⟨{ s with cpt.skipped := satAdd s.cpt.skipped (seqAhead k f.seq - 1) },
      ⟨rfl, rfl, rfl, rfl, rfl, List.prefix_rfl, ⟨fun _ h => h, fun h => ⟨le_rfl, h⟩⟩⟩, rfl, if_neg fresh⟩

/-- A sample taken without an active order: held, weighed, and the zones settled again. -/
theorem takeSample_idle (s : State) (f : PositionFrame) (g : Grip) (idle : s.moc.active = none) :
    ∃ x, Apart s x ∧ x.ptb = s.ptb ∧ x.sample = clampSample s.cpt f g ∧ takeSample s f g = resettleZones x := by
  let p := clampSample s.cpt f g
  let noted := noteBack (noteExcursion s (clampedFields f p))
  let kept := holdSample noted p f.seq
  obtain ⟨excursion, ptb1⟩ := noteExcursion_apart s (clampedFields f p)
  obtain ⟨back, ptb2⟩ := noteBack_apart (noteExcursion s (clampedFields f p))
  have apart : Apart s (weighPosition kept.compute) :=
    ((excursion.trans back).trans (holdSample_apart noted p f.seq)).trans
      ((compute_apart kept).trans (weighPosition_apart _))
  have moves : Moves true kept (weighPosition kept.compute) := weighPosition_moves (Moves.refl kept).compute
  have same : ordersSample (weighPosition kept.compute) = weighPosition kept.compute := by
    have none : (weighPosition kept.compute).moc.active = .none := apart.moc ▸ idle
    simp only [ordersSample, none]
  refine ⟨weighPosition kept.compute, apart, ?_, moves.sample, ?_⟩
  · exact moves.ptb.trans (ptb2.trans ptb1)
  · exact congrArg resettleZones same

/-- At a taken position sample in RUNNING without an active order the HELD entries of zones are settled (R90). -/
theorem positionSample_settles (hn : s.rlc.nodeState = .running) (claims : ClaimsOk s.clu)
    (image : s.cpt.image = some img) (taken : TakesSample s bytes f g) (idle : s.moc.active = none) :
    ∃ u, exec (.positionSample bytes) s = .next (State.finish u) ∧ u.ptb = s.ptb
      ∧ u.sample.x = clamp 0 img.runway f.x
      ∧ ∀ c ∈ s.clu.claims, c.state = .held → ZoneSettled s u img c := by
  obtain ⟨y, counted, ptb1, read⟩ := readPosition_taken taken
  obtain ⟨x, apart, ptb2, sample, held⟩ := takeSample_idle y f g (counted.moc ▸ idle)
  have moves : Moves false x (resettleZones x) := resettleZones_moves (.refl x)
  refine ⟨resettleZones x, ?_, moves.ptb.trans (ptb2.trans ptb1), ?_, fun c hc state =>
    resettleZones_settled hn claims image (counted.trans apart) hc state⟩
  · change execPositionSample bytes s = _
    have out : s.rlc.nodeState ≠ .reset := by rw [hn]; decide
    rw [execPositionSample, if_neg out, read, held]
  · rw [moves.sample, sample, clampSample, xLimit, counted.image, image]

end

/-! ## The obligation -/

/-- Settles O34: each HELD entry is settled by its own step, which the steps on the other entries leave alone. -/
theorem doubleHoldsAreSettled : Obligations.DoubleHoldsAreSettled := by
  intro s img hn claims image
  exact ⟨fun n p b hp hr => rxBeacon_settles hn claims image hp hr,
    fun c hc asking => settleTimerExpiry_settles hn claims image hc asking,
    fun bytes f g taken idle => positionSample_settles hn claims image taken idle,
    fun c hc held => resettleSlots_settled hn claims image hc held⟩

end Sys2Proof.Machine
end

section
/-! SUPPORT. The bytes of frames (10.2, 10.3): each reader reads back what its writer writes, and reads nothing else. -/

namespace Sys2Proof.Machine.Codec

open Sys2Proof

/-- `take` reads back what `put` writes of every value that is `ok`, and what it reads is the bytes of such a value. -/
structure Reads {α : Type} (take : List Byte → Option (α × List Byte)) (put : α → List Byte) (ok : α → Prop) : Prop where
  back : ∀ {a}, ok a → ∀ r, take (put a ++ r) = some (a, r)
  only : ∀ {bs a r}, take bs = some (a, r) → ok a ∧ bs = put a ++ r

/-! ## Fields -/

theorem take1_reads : Reads take1 put1 (· < 256) where
  back h r := by simp [take1, put1, Nat.mod_eq_of_lt h]
  only {bs a r} h := by
    cases bs with
    | nil => cases h
    | cons b bs =>
      simp only [take1, Option.some.injEq, Prod.mk.injEq] at h
      obtain ⟨rfl, rfl⟩ := h
      exact ⟨b.isLt, by simp [put1]⟩

theorem take2_reads : Reads take2 put2 (· < 65536) where
  back h r := by
    simp only [take2, put2, List.cons_append, List.nil_append, BitVec.toNat_ofNat, Option.some.injEq, Prod.mk.injEq,
      and_true]
    omega
  only {bs a r} h := by
    match bs, h with
    | b :: c :: bs, h =>
      simp only [take2, Option.some.injEq, Prod.mk.injEq] at h
      obtain ⟨rfl, rfl⟩ := h
      have hb := b.isLt
      have hc := c.isLt
      refine ⟨by omega, ?_⟩
      simp only [put2, List.cons_append, List.nil_append, List.cons.injEq, and_true]
      constructor <;> apply BitVec.eq_of_toNat_eq <;> simp only [BitVec.toNat_ofNat] <;> omega

/-- A two-byte field carries the value's lower 16 bits. -/
theorem put2_mod (n : Nat) : put2 (n % 65536) = put2 n := by
  simp only [put2, List.cons.injEq, and_true]
  constructor <;> apply BitVec.eq_of_toNat_eq <;> simp only [BitVec.toNat_ofNat] <;> omega

/-- A field of a higher and a lower part, each read by its own reader. -/
theorem take4_reads : Reads take4 put4 (· < 4294967296) where
  back {a} h r := by
    have e : put4 a ++ r = put2 (a / 65536) ++ (put2 (a % 65536) ++ r) := by simp [put4, put2_mod]
    simp only [take4, e, take2_reads.back (show a / 65536 < 65536 by omega),
      take2_reads.back (show a % 65536 < 65536 by omega), Option.bind_eq_bind, Option.bind_some, Option.some.injEq,
      Prod.mk.injEq, and_true]
    omega
  only {bs a r} h := by
    simp only [take4, Option.bind_eq_bind, Option.bind_eq_some_iff, Prod.exists, Option.some.injEq, Prod.mk.injEq] at h
    obtain ⟨hi, r1, h1, lo, r2, h2, rfl, rfl⟩ := h
    obtain ⟨l1, rfl⟩ := take2_reads.only h1
    obtain ⟨l2, rfl⟩ := take2_reads.only h2
    refine ⟨by omega, ?_⟩
    rw [put4, ← put2_mod (hi * 65536 + lo), show (hi * 65536 + lo) / 65536 = hi by omega,
      show (hi * 65536 + lo) % 65536 = lo by omega, List.append_assoc]

theorem put4_mod (n : Nat) : put4 (n % 4294967296) = put4 n := by
  rw [put4, put4, ← put2_mod (n / 65536), ← put2_mod n, show n % 4294967296 / 65536 = n / 65536 % 65536 by omega,
    ← put2_mod (n % 4294967296), show n % 4294967296 % 65536 = n % 65536 by omega]

theorem take6_reads : Reads take6 put6 (· < 281474976710656) where
  back {a} h r := by
    have e : put6 a ++ r = put2 (a / 4294967296) ++ (put4 (a % 4294967296) ++ r) := by simp [put6, put4_mod]
    simp only [take6, e, take2_reads.back (show a / 4294967296 < 65536 by omega),
      take4_reads.back (show a % 4294967296 < 4294967296 by omega), Option.bind_eq_bind, Option.bind_some,
      Option.some.injEq, Prod.mk.injEq, and_true]
    omega
  only {bs a r} h := by
    simp only [take6, Option.bind_eq_bind, Option.bind_eq_some_iff, Prod.exists, Option.some.injEq, Prod.mk.injEq] at h
    obtain ⟨hi, r1, h1, lo, r2, h2, rfl, rfl⟩ := h
    obtain ⟨l1, rfl⟩ := take2_reads.only h1
    obtain ⟨l2, rfl⟩ := take4_reads.only h2
    refine ⟨by omega, ?_⟩
    rw [put6, ← put4_mod (hi * 4294967296 + lo), show (hi * 4294967296 + lo) / 4294967296 = hi by omega,
      show (hi * 4294967296 + lo) % 4294967296 = lo by omega, List.append_assoc]

/-! ### Signed fields (R218) -/

theorem fitsIn_iff (bits n : Nat) : fitsIn bits n = true ↔ n < 2 ^ bits := by simp [fitsIn]

theorem signedFits16_iff (v : Int) : signedFits 16 v = true ↔ -32768 ≤ v ∧ v < 32768 := by
  simp [signedFits]

theorem signedFits32_iff (v : Int) : signedFits 32 v = true ↔ -2147483648 ≤ v ∧ v < 2147483648 := by
  simp [signedFits]

theorem signed2_mod {v : Int} (h : signedFits 16 v = true) : signed2 (v % 65536).toNat = v := by
  rw [signedFits16_iff] at h
  unfold signed2
  split <;> omega

theorem signed4_mod {v : Int} (h : signedFits 32 v = true) : signed4 (v % 4294967296).toNat = v := by
  rw [signedFits32_iff] at h
  unfold signed4
  split <;> omega

theorem signed2_fits {n : Nat} (h : n < 65536) : signedFits 16 (signed2 n) = true ∧ putS2 (signed2 n) = put2 n := by
  rw [signedFits16_iff, putS2]
  unfold signed2
  split
  · exact ⟨by omega, by congr; omega⟩
  · exact ⟨by omega, by congr; omega⟩

theorem signed4_fits {n : Nat} (h : n < 4294967296) :
    signedFits 32 (signed4 n) = true ∧ putS4 (signed4 n) = put4 n := by
  rw [signedFits32_iff, putS4]
  unfold signed4
  split
  · exact ⟨by omega, by congr; omega⟩
  · exact ⟨by omega, by congr; omega⟩

theorem take2_putS2 (v : Int) (r : List Byte) : take2 (putS2 v ++ r) = some ((v % 65536).toNat, r) :=
  take2_reads.back (show (v % 65536).toNat < 65536 by omega) r

theorem take4_putS4 (v : Int) (r : List Byte) : take4 (putS4 v ++ r) = some ((v % 4294967296).toNat, r) :=
  take4_reads.back (show (v % 4294967296).toNat < 4294967296 by omega) r

/-! ### Optional fields and lists (R219) -/

theorem takeOpt4_reads (there : Bool) :
    Reads (takeOpt4 there) putOpt4 fun v => v.isSome = there ∧ optFits 32 v = true where
  back {v} h r := by
    obtain ⟨rfl, hf⟩ := h
    cases v with
    | none => rfl
    | some n => simp [takeOpt4, putOpt4, take4_reads.back (by simpa [optFits, fitsIn_iff] using hf)]
  only {bs v r} h := by
    cases there with
    | false =>
      simp only [takeOpt4, Bool.false_eq_true, if_false, Option.some.injEq, Prod.mk.injEq] at h
      obtain ⟨rfl, rfl⟩ := h
      exact ⟨⟨rfl, rfl⟩, rfl⟩
    | true =>
      simp only [takeOpt4, if_true, Option.map_eq_some_iff, Prod.exists, Prod.mk.injEq] at h
      obtain ⟨n, r1, h1, rfl, rfl⟩ := h
      obtain ⟨hn, e⟩ := take4_reads.only h1
      exact ⟨⟨rfl, by simpa [optFits, fitsIn_iff] using hn⟩, e⟩

theorem takeOpt2_reads (there : Bool) :
    Reads (takeOpt2 there) putOpt2 fun v => v.isSome = there ∧ optFits 16 v = true where
  back {v} h r := by
    obtain ⟨rfl, hf⟩ := h
    cases v with
    | none => rfl
    | some n => simp [takeOpt2, putOpt2, take2_reads.back (by simpa [optFits, fitsIn_iff] using hf)]
  only {bs v r} h := by
    cases there with
    | false =>
      simp only [takeOpt2, Bool.false_eq_true, if_false, Option.some.injEq, Prod.mk.injEq] at h
      obtain ⟨rfl, rfl⟩ := h
      exact ⟨⟨rfl, rfl⟩, rfl⟩
    | true =>
      simp only [takeOpt2, if_true, Option.map_eq_some_iff, Prod.exists, Prod.mk.injEq] at h
      obtain ⟨n, r1, h1, rfl, rfl⟩ := h
      obtain ⟨hn, e⟩ := take2_reads.only h1
      exact ⟨⟨rfl, by simpa [optFits, fitsIn_iff] using hn⟩, e⟩

theorem takeMany_reads {α : Type} {item : List Byte → Option (α × List Byte)} {put : α → List Byte} {ok : α → Prop}
    (h : Reads item put ok) (k : Nat) :
    Reads (takeMany item k) (fun l => l.flatMap put) fun l => l.length = k ∧ ∀ a ∈ l, ok a where
  back {l} hl r := by
    induction k generalizing l with
    | zero =>
      obtain ⟨h0, _⟩ := hl
      rw [List.length_eq_zero_iff.mp h0]
      rfl
    | succ k ih =>
      obtain ⟨hk, ha⟩ := hl
      obtain ⟨a, as, rfl⟩ := List.exists_cons_of_length_eq_add_one hk
      have hrest := ih (l := as) ⟨by simpa using hk, fun b hb => ha b (List.mem_cons_of_mem _ hb)⟩
      simp [takeMany, h.back (ha a List.mem_cons_self), hrest]
  only {bs l r} hl := by
    induction k generalizing bs l r with
    | zero =>
      simp only [takeMany, Option.some.injEq, Prod.mk.injEq] at hl
      obtain ⟨rfl, rfl⟩ := hl
      simp
    | succ k ih =>
      simp only [takeMany, Option.bind_eq_bind, Option.bind_eq_some_iff, Prod.exists, Option.some.injEq,
        Prod.mk.injEq] at hl
      obtain ⟨a, r1, h1, as, r2, h2, rfl, rfl⟩ := hl
      obtain ⟨ha, rfl⟩ := h.only h1
      obtain ⟨⟨hk, has⟩, rfl⟩ := ih h2
      exact ⟨⟨by simp [hk], by simpa using ⟨ha, has⟩⟩, by simp⟩

/-! ## Codes -/

theorem lineStateOf_code (st : LineState) : lineStateOf (lineStateCode st) = some st := by cases st <;> rfl

theorem lineStateOf_eq_some {n : Nat} {st : LineState} (h : lineStateOf n = some st) : n = lineStateCode st := by
  unfold lineStateOf at h
  split at h <;> cases h <;> rfl

theorem loadClassOf_code (c : LoadClass) : loadClassOf (loadClassCode c) = some c := by cases c <;> rfl

theorem loadClassOf_eq_some {n : Nat} {c : LoadClass} (h : loadClassOf n = some c) : n = loadClassCode c := by
  unfold loadClassOf at h
  split at h <;> cases h <;> rfl

theorem noticeKindOf_code (k : NoticeKind) : noticeKindOf (noticeKindCode k) = some k := by cases k <;> rfl

theorem noticeKindOf_eq_some {n : Nat} {k : NoticeKind} (h : noticeKindOf n = some k) : n = noticeKindCode k := by
  unfold noticeKindOf at h
  split at h <;> cases h <;> rfl

/-- A target is read back from its kind byte and id; a kind byte of 2 or more is no reason to refuse it (log entry 48). -/
theorem targetOf_target {t : Target} (h : targetFits t = true) : targetOf (targetKind t) (targetId t) = t := by
  cases t with
  | zone id => rfl
  | slot id => rfl
  | other k id =>
    simp only [targetFits, Bool.and_eq_true, decide_eq_true_eq] at h
    obtain ⟨⟨h2, _⟩, _⟩ := h
    match k, h2 with
    | k + 2, _ => rfl

theorem targetOf_fits {k id : Nat} (hk : k < 256) (hid : id < 65536) :
    targetFits (targetOf k id) = true ∧ targetKind (targetOf k id) = k ∧ targetId (targetOf k id) = id := by
  match k with
  | 0 => simpa [targetOf, targetFits, targetKind, targetId, fitsIn_iff] using hid
  | 1 => simpa [targetOf, targetFits, targetKind, targetId, fitsIn_iff] using hid
  | k + 2 => exact ⟨by simp [targetOf, targetFits, fitsIn_iff, hid, hk], rfl, rfl⟩

theorem targetFits_bytes {t : Target} (h : targetFits t = true) : targetKind t < 256 ∧ targetId t < 65536 := by
  cases t <;> simp_all [targetFits, targetKind, targetId, fitsIn_iff]

/-! ## Claim entries and payloads -/

/-- A claim entry that passes R219 and fits its bytes. -/
def EntryGood (e : ClaimEntry) : Prop :=
  entryOk e = true ∧ (targetFits e.target && fitsIn 8 e.prio && optFits 16 e.version) = true

/-- The flag byte of an entry: its kind, and the bits of held and of a version. -/
theorem entryFlags {flags : Nat} (h : flags < 8) :
    flags = flags % 2 + flagBit (flags / 2 % 2 == 1) 2 + flagBit (flags / 4 % 2 == 1) 4 := by
  interval_cases flags <;> rfl

theorem takeEntry_reads : Reads takeEntry putEntry EntryGood where
  back {e} h r := by
    obtain ⟨target, held, prio, version⟩ := e
    simp only [EntryGood, Bool.and_eq_true, fitsIn_iff] at h
    obtain ⟨ho, ⟨ht, hp⟩, hv⟩ := h
    obtain ⟨_, hid⟩ := targetFits_bytes ht
    have hb := take1_reads.back hp
    have hi := take2_reads.back hid
    have hver := (takeOpt2_reads version.isSome).back (a := version) ⟨rfl, hv⟩
    have hflags (n : Nat) (hn : n < 256) := take1_reads.back hn
    cases target with
    | other k id => cases ho
    | zone id =>
      cases held <;> cases version <;>
        simp_all [takeEntry, putEntry, targetKind, targetId, flagBit, targetOf]
    | slot id =>
      cases held <;> cases version <;>
        simp_all [takeEntry, putEntry, targetKind, targetId, flagBit, targetOf, entryOk]
  only {bs e r} h := by
    simp only [takeEntry, Option.bind_eq_bind, Option.bind_eq_some_iff, Prod.exists] at h
    obtain ⟨flags, r1, h1, prio, r2, h2, id, r3, h3, h⟩ := h
    obtain ⟨-, rfl⟩ := take1_reads.only h1
    obtain ⟨hp, rfl⟩ := take1_reads.only h2
    obtain ⟨hid, rfl⟩ := take2_reads.only h3
    split at h
    · cases h
    rename_i hf
    simp only [Option.bind_eq_some_iff, Prod.exists, Option.some.injEq, Prod.mk.injEq] at h
    obtain ⟨version, r4, h4, rfl, rfl⟩ := h
    obtain ⟨⟨hs, hv⟩, rfl⟩ := (takeOpt2_reads _).only h4
    obtain ⟨h8, unversioned⟩ := not_or.mp hf
    have bits := entryFlags (Nat.lt_of_not_le h8)
    rw [← hs] at bits unversioned
    rcases Nat.mod_two_eq_zero_or_one flags with low | low
    · rw [low] at bits ⊢
      refine ⟨⟨rfl, by simp [targetOf, targetFits, fitsIn_iff, hid, hp, hv]⟩, ?_⟩
      simp only [putEntry, targetOf, targetKind, targetId, List.append_assoc, ← bits]
    · have none_stated : version = none := by
        cases version with
        | none => rfl
        | some v => exact absurd ⟨rfl, low⟩ unversioned
      subst none_stated
      rw [low] at bits ⊢
      refine ⟨⟨rfl, by simp [targetOf, targetFits, fitsIn_iff, hid, hp, optFits]⟩, ?_⟩
      simp only [putEntry, targetOf, targetKind, targetId, List.append_assoc, ← bits]

end Sys2Proof.Machine.Codec
end

section
/-! The payloads of runway frames (10.2) and of POSITION frames (10.3), read back from their bytes. -/

namespace Sys2Proof.Machine.Codec

open Sys2Proof

/-! ## BEACON -/

theorem lineStateCode_lt (st : LineState) : lineStateCode st < 256 := by cases st <;> decide

theorem loadClassCode_lt (c : LoadClass) : loadClassCode c < 256 := by cases c <;> decide

theorem noticeKindCode_lt (k : NoticeKind) : noticeKindCode k < 256 := by cases k <;> decide

theorem flagBit_lt (b : Bool) : flagBit b 1 < 256 := by cases b <;> decide

theorem flagBit_one (b : Bool) : (flagBit b 1 == 1) = b := by cases b <;> rfl

theorem flagBit_small (b : Bool) : flagBit b 1 < 2 := by cases b <;> decide

theorem flagBit_of_small {n : Nat} (h : n < 2) : flagBit (n == 1) 1 = n := by interval_cases n <;> rfl

/-- A BEACON that passes R219 and fits its bytes. -/
def BeaconGood (b : Beacon) : Prop :=
  (b.claims.length ≤ 6 ∧ ∀ e ∈ b.claims, EntryGood e)
    ∧ signedFits 32 b.x = true ∧ signedFits 16 b.vx = true ∧ b.age < 65536 ∧ b.noticeSeq < 65536

theorem takeBeacon_reads : Reads takeBeacon putBeacon BeaconGood where
  back {b} h r := by
    obtain ⟨⟨count, entries⟩, hx, hvx, hage, hseq⟩ := h
    have state := take1_reads.back (lineStateCode_lt b.state)
    have flags := take1_reads.back (flagBit_lt b.valid)
    have age := take2_reads.back hage
    have cls := take1_reads.back (loadClassCode_lt b.loadClass)
    have seq := take2_reads.back hseq
    have len := take1_reads.back (show b.claims.length < 256 by omega)
    have claims := (takeMany_reads takeEntry_reads b.claims.length).back ⟨rfl, entries⟩ r
    have small : ¬(flagBit b.valid 1 ≥ 2 ∨ b.claims.length > 6) := by
      have := flagBit_small b.valid
      omega
    simp only [takeBeacon, putBeacon, List.append_assoc, state, lineStateOf_code, flags, take4_putS4, take2_putS2, age,
      cls, loadClassOf_code, seq, len, claims, Option.bind_eq_bind, Option.bind_some, if_neg small, signed4_mod hx,
      signed2_mod hvx, flagBit_one]
  only {bs b r} h := by
    simp only [takeBeacon, Option.bind_eq_bind, Option.bind_eq_some_iff, Prod.exists] at h
    obtain ⟨st, r1, h1, state, hstate, flags, r2, h2, x, r3, h3, vx, r4, h4, age, r5, h5, cl, r6, h6, cls, hcls, seq,
      r7, h7, count, r8, h8, h⟩ := h
    split at h
    · cases h
    rename_i small
    simp only [Option.bind_eq_some_iff, Prod.exists, Option.some.injEq, Prod.mk.injEq] at h
    obtain ⟨claims, r9, h9, rfl, rfl⟩ := h
    obtain ⟨-, rfl⟩ := take1_reads.only h1
    obtain ⟨-, rfl⟩ := take1_reads.only h2
    obtain ⟨hx, rfl⟩ := take4_reads.only h3
    obtain ⟨hvx, rfl⟩ := take2_reads.only h4
    obtain ⟨hage, rfl⟩ := take2_reads.only h5
    obtain ⟨-, rfl⟩ := take1_reads.only h6
    obtain ⟨hseq, rfl⟩ := take2_reads.only h7
    obtain ⟨-, rfl⟩ := take1_reads.only h8
    obtain ⟨⟨rfl, entries⟩, rfl⟩ := (takeMany_reads takeEntry_reads _).only h9
    obtain ⟨fits_x, bytes_x⟩ := signed4_fits hx
    obtain ⟨fits_vx, bytes_vx⟩ := signed2_fits hvx
    have flag := flagBit_of_small (show flags < 2 by omega)
    refine ⟨⟨⟨Nat.le_of_not_gt fun h => small (.inr h), entries⟩, fits_x, fits_vx, hage, hseq⟩, ?_⟩
    simp only [putBeacon, lineStateOf_eq_some hstate, loadClassOf_eq_some hcls, bytes_x, bytes_vx, flag,
      List.append_assoc]

/-! ## PROFILE -/

/-- A PROFILE whose fields fit their bytes. -/
def ProfileGood (p : Profile) : Prop :=
  p.left < 65536 ∧ p.right < 65536 ∧ p.vmaxEmpty < 65536 ∧ p.decEmpty < 65536 ∧ p.vmaxLoaded < 65536
    ∧ p.decLoaded < 65536 ∧ p.reaction < 65536 ∧ p.creep < 65536

theorem takeProfile_reads : Reads takeProfile putProfile ProfileGood where
  back {p} h r := by
    obtain ⟨h1, h2, h3, h4, h5, h6, h7, h8⟩ := h
    simp only [takeProfile, putProfile, List.append_assoc, take2_reads.back h1, take2_reads.back h2, take2_reads.back h3,
      take2_reads.back h4, take2_reads.back h5, take2_reads.back h6, take2_reads.back h7, take2_reads.back h8,
      Option.bind_eq_bind, Option.bind_some]
  only {bs p r} h := by
    simp only [takeProfile, Option.bind_eq_bind, Option.bind_eq_some_iff, Prod.exists, Option.some.injEq,
      Prod.mk.injEq] at h
    obtain ⟨_, _, h1, _, _, h2, _, _, h3, _, _, h4, _, _, h5, _, _, h6, _, _, h7, _, _, h8, rfl, rfl⟩ := h
    obtain ⟨l1, rfl⟩ := take2_reads.only h1
    obtain ⟨l2, rfl⟩ := take2_reads.only h2
    obtain ⟨l3, rfl⟩ := take2_reads.only h3
    obtain ⟨l4, rfl⟩ := take2_reads.only h4
    obtain ⟨l5, rfl⟩ := take2_reads.only h5
    obtain ⟨l6, rfl⟩ := take2_reads.only h6
    obtain ⟨l7, rfl⟩ := take2_reads.only h7
    obtain ⟨l8, rfl⟩ := take2_reads.only h8
    exact ⟨⟨l1, l2, l3, l4, l5, l6, l7, l8⟩, by simp only [putProfile, List.append_assoc]⟩

/-! ## NOTICE -/

/-- A NOTICE that passes R219 and fits its bytes. -/
def NoticeGood (n : Notice) : Prop :=
  (carriesCoil n.kind || n.coil == {}) = true ∧ n.seq < 65536 ∧ n.slot < 65536 ∧ optFits 32 n.coil.id = true
    ∧ optFits 32 n.coil.weight = true ∧ optFits 16 n.coil.diameter = true ∧ optFits 16 n.coil.width = true

/-- The presence byte holds a bit for each field that is there. -/
theorem presence_bits (c : Coil) : presence c < 16 ∧ (presence c % 2 == 1) = c.id.isSome
    ∧ (presence c / 2 % 2 == 1) = c.weight.isSome ∧ (presence c / 4 % 2 == 1) = c.diameter.isSome
    ∧ (presence c / 8 % 2 == 1) = c.width.isSome := by
  unfold presence
  cases c.id.isSome <;> cases c.weight.isSome <;> cases c.diameter.isSome <;> cases c.width.isSome <;> decide

/-- A presence byte is that of any coil whose fields are there as its bits say. -/
theorem presence_of_bits {p : Nat} {c : Coil} (h : p < 16) (h1 : c.id.isSome = (p % 2 == 1))
    (h2 : c.weight.isSome = (p / 2 % 2 == 1)) (h3 : c.diameter.isSome = (p / 4 % 2 == 1))
    (h4 : c.width.isSome = (p / 8 % 2 == 1)) : presence c = p := by
  rw [presence, h1, h2, h3, h4]
  interval_cases p <;> rfl

theorem presence_eq_zero {c : Coil} (h : presence c = 0) : c = {} := by
  obtain ⟨id, weight, diameter, width⟩ := c
  cases id <;> cases weight <;> cases diameter <;> cases width <;> simp_all [presence, flagBit]

theorem takeNotice_reads : Reads takeNotice putNotice NoticeGood where
  back {n} h r := by
    obtain ⟨carried, hseq, hslot, hid, hweight, hdiameter, hwidth⟩ := h
    obtain ⟨h16, b1, b2, b3, b4⟩ := presence_bits n.coil
    have kind := take1_reads.back (noticeKindCode_lt n.kind)
    have there := take1_reads.back (show presence n.coil < 256 by omega)
    have legal : ¬(presence n.coil ≥ 16 ∨ (carriesCoil n.kind = false ∧ presence n.coil ≠ 0)) := by
      rintro (h | ⟨h, hp⟩)
      · omega
      · rw [h, Bool.false_or, beq_iff_eq] at carried
        exact hp (by rw [carried]; rfl)
    have id := (takeOpt4_reads n.coil.id.isSome).back ⟨rfl, hid⟩
    have weight := (takeOpt4_reads n.coil.weight.isSome).back ⟨rfl, hweight⟩
    have diameter := (takeOpt2_reads n.coil.diameter.isSome).back ⟨rfl, hdiameter⟩
    have width := (takeOpt2_reads n.coil.width.isSome).back ⟨rfl, hwidth⟩ r
    simp only [takeNotice, putNotice, List.append_assoc, take2_reads.back hseq, take2_reads.back hslot, kind,
      noticeKindOf_code, there, Option.bind_eq_bind, Option.bind_some, if_neg legal, b1, b2, b3, b4, id, weight, diameter,
      width]
  only {bs n r} h := by
    simp only [takeNotice, Option.bind_eq_bind, Option.bind_eq_some_iff, Prod.exists] at h
    obtain ⟨seq, _, h1, slot, _, h2, k, _, h3, kind, hkind, p, _, h4, h⟩ := h
    split at h
    · cases h
    rename_i legal
    simp only [Option.bind_eq_some_iff, Prod.exists, Option.some.injEq, Prod.mk.injEq] at h
    obtain ⟨id, _, h5, weight, _, h6, diameter, _, h7, width, _, h8, rfl, rfl⟩ := h
    obtain ⟨hseq, rfl⟩ := take2_reads.only h1
    obtain ⟨hslot, rfl⟩ := take2_reads.only h2
    obtain ⟨-, rfl⟩ := take1_reads.only h3
    obtain ⟨-, rfl⟩ := take1_reads.only h4
    obtain ⟨⟨s1, f1⟩, rfl⟩ := (takeOpt4_reads _).only h5
    obtain ⟨⟨s2, f2⟩, rfl⟩ := (takeOpt4_reads _).only h6
    obtain ⟨⟨s3, f3⟩, rfl⟩ := (takeOpt2_reads _).only h7
    obtain ⟨⟨s4, f4⟩, rfl⟩ := (takeOpt2_reads _).only h8
    have bits := presence_of_bits (c := { id := id, weight := weight, diameter := diameter, width := width })
      (by omega) s1 s2 s3 s4
    refine ⟨⟨?_, hseq, hslot, f1, f2, f3, f4⟩, ?_⟩
    · cases carries : carriesCoil kind with
      | true => rfl
      | false =>
        have zero : p = 0 := by
          by_contra hp
          exact legal (.inr ⟨carries, hp⟩)
        rw [Bool.false_or, beq_iff_eq]
        exact presence_eq_zero (bits.trans zero)
    · simp only [putNotice, bits, noticeKindOf_eq_some hkind, List.append_assoc]

/-! ## TRUCK_STATE -/

/-- A position block that passes R219 and fits its bytes. -/
def PositionGood (p : Position) : Prop := positionOk p = true ∧ positionFits p = true

theorem takePosition_reads : Reads takePosition putPosition PositionGood where
  back {p} h r := by
    obtain ⟨hok, hfits⟩ := h
    simp only [positionOk, Bool.and_eq_true, beq_iff_eq] at hok
    obtain ⟨coil_there, weight_there⟩ := hok
    simp only [positionFits, Bool.and_eq_true, fitsIn_iff] at hfits
    obtain ⟨⟨⟨⟨⟨⟨⟨s1, s2⟩, s3⟩, kg⟩, x⟩, y⟩, coil_fits⟩, weight_fits⟩ := hfits
    have flag := take1_reads.back (flagBit_lt p.loaded)
    have small : ¬ flagBit p.loaded 1 ≥ 2 := Nat.not_le_of_lt (flagBit_small p.loaded)
    have coil := (takeOpt4_reads p.loaded).back ⟨coil_there, coil_fits⟩
    have weight := (takeOpt4_reads p.loaded).back ⟨weight_there, weight_fits⟩ r
    have bytes : (if p.loaded then putOpt4 p.coilId ++ putOpt4 p.weight else [])
        = putOpt4 p.coilId ++ putOpt4 p.weight := by
      cases hl : p.loaded with
      | true => rfl
      | false =>
        rw [hl, Option.isSome_eq_false_iff, Option.isNone_iff_eq_none] at coil_there weight_there
        rw [coil_there, weight_there]
        rfl
    simp only [takePosition, putPosition, bytes, List.append_assoc, take2_reads.back s1, take2_reads.back s2,
      take2_reads.back s3, take2_reads.back kg, take4_reads.back x, take2_reads.back y, flag, if_neg small,
      flagBit_one, coil, weight, Option.bind_eq_bind, Option.bind_some]
  only {bs p r} h := by
    simp only [takePosition, Option.bind_eq_bind, Option.bind_eq_some_iff, Prod.exists] at h
    obtain ⟨s1, _, h1, s2, _, h2, s3, _, h3, kg, _, h4, x, _, h5, y, _, h6, ls, _, h7, h⟩ := h
    split at h
    · cases h
    rename_i small
    simp only [Option.bind_eq_some_iff, Prod.exists, Option.some.injEq, Prod.mk.injEq] at h
    obtain ⟨coil, _, h8, weight, _, h9, rfl, rfl⟩ := h
    obtain ⟨l1, rfl⟩ := take2_reads.only h1
    obtain ⟨l2, rfl⟩ := take2_reads.only h2
    obtain ⟨l3, rfl⟩ := take2_reads.only h3
    obtain ⟨l4, rfl⟩ := take2_reads.only h4
    obtain ⟨l5, rfl⟩ := take4_reads.only h5
    obtain ⟨l6, rfl⟩ := take2_reads.only h6
    obtain ⟨-, rfl⟩ := take1_reads.only h7
    obtain ⟨⟨coil_there, f1⟩, rfl⟩ := (takeOpt4_reads _).only h8
    obtain ⟨⟨weight_there, f2⟩, rfl⟩ := (takeOpt4_reads _).only h9
    have flag := flagBit_of_small (show ls < 2 by omega)
    refine ⟨⟨by simp [positionOk, coil_there, weight_there], ?_⟩, ?_⟩
    · simp only [positionFits, Bool.and_eq_true, fitsIn_iff]
      exact ⟨⟨⟨⟨⟨⟨⟨l1, l2⟩, l3⟩, l4⟩, l5⟩, l6⟩, f1⟩, f2⟩
    · have bytes : (if (ls == 1) = true then putOpt4 coil ++ putOpt4 weight else []) = putOpt4 coil ++ putOpt4 weight := by
        cases hl : ls == 1 with
        | true => rfl
        | false =>
          rw [hl, Option.isSome_eq_false_iff, Option.isNone_iff_eq_none] at coil_there weight_there
          rw [coil_there, weight_there]
          rfl
      simp only [putPosition, flag, bytes, List.append_assoc]

/-- The content of a TRUCK_STATE that passes R219 and fits its bytes. -/
def TruckGood (c : TruckContent) : Prop := truckOk c = true ∧ contentFits c = true

/-- The bytes of a TRUCK_STATE behind its version. -/
def putContents (c : TruckContent) : List Byte :=
  match c with
  | .noTruck => put1 0
  | .present ready d cumulative loads =>
    put1 (if ready then 2 else 1) ++ put4 d.truckId ++ put4 d.allowance ++ put2 d.deckHeight ++ put1 d.limits.length
      ++ d.limits.flatMap put4 ++ put1 d.positions.length ++ d.positions.flatMap putPosition ++ d.plan.flatMap put1
      ++ put4 cumulative ++ loads.flatMap put4

theorem putTruck_eq (bay version : Nat) (c : TruckContent) :
    putTruck bay version c = put1 bay ++ (put2 version ++ putContents c) := by
  cases c <;> simp [putTruck, putContents]

theorem takeTruck_reads : Reads takeTruck putContents TruckGood where
  back {c} h r := by
    obtain ⟨hok, hfits⟩ := h
    cases c with
    | noTruck => rfl
    | present ready d cumulative loads =>
      simp only [truckOk, Bool.and_eq_true, decide_eq_true_eq, List.all_eq_true] at hok
      obtain ⟨⟨g1, g3, p1, p6, plan_length, loads_length⟩, positions⟩ := hok
      simp only [contentFits, Bool.and_eq_true, fitsIn_iff, List.all_eq_true] at hfits
      obtain ⟨⟨⟨⟨⟨⟨⟨hid, hallow⟩, hdeck⟩, hlimits⟩, hpos⟩, hplan⟩, hcum⟩, hloads⟩ := hfits
      have state := take1_reads.back (show (if ready then 2 else 1) < 256 by split <;> omega)
      have groups := take1_reads.back (show d.limits.length < 256 by omega)
      have limits := (takeMany_reads take4_reads d.limits.length).back (a := d.limits) ⟨rfl, hlimits⟩
      have count := take1_reads.back (show d.positions.length < 256 by omega)
      have places := (takeMany_reads takePosition_reads d.positions.length).back (a := d.positions)
        ⟨rfl, fun p hp => ⟨positions p hp, hpos p hp⟩⟩
      have plan := (takeMany_reads take1_reads d.positions.length).back (a := d.plan) ⟨plan_length, hplan⟩
      have sums := (takeMany_reads take4_reads d.limits.length).back (a := loads) ⟨loads_length, hloads⟩ r
      have there : ¬ (if ready then 2 else 1) = 0 := by split <;> omega
      have listed : ¬ (if ready then 2 else 1) > 2 := by split <;> omega
      have group_range : ¬(d.limits.length < 1 ∨ d.limits.length > 3) := by omega
      have position_range : ¬(d.positions.length < 1 ∨ d.positions.length > 6) := by omega
      have flag : ((if ready then 2 else 1) == 2) = ready := by cases ready <;> rfl
      simp only [takeTruck, putContents, List.append_assoc, state, there, listed, if_false, take4_reads.back hid,
        take4_reads.back hallow, take2_reads.back hdeck, groups, if_neg group_range, limits, count,
        if_neg position_range, places, plan, take4_reads.back hcum, sums, flag, Option.bind_eq_bind, Option.bind_some]
  only {bs c r} h := by
    replace h := Option.bind_eq_some_iff.mp h
    obtain ⟨⟨st, _⟩, h1, h⟩ := h
    dsimp only at h
    obtain ⟨-, rfl⟩ := take1_reads.only h1
    split at h
    · rename_i empty
      simp only [Option.some.injEq, Prod.mk.injEq] at h
      obtain ⟨rfl, rfl⟩ := h
      exact ⟨⟨rfl, rfl⟩, by rw [empty]; rfl⟩
    rename_i there
    split at h
    · cases h
    rename_i listed
    replace h := Option.bind_eq_some_iff.mp h
    obtain ⟨⟨truck, _⟩, h2, h⟩ := h
    replace h := Option.bind_eq_some_iff.mp h
    obtain ⟨⟨allowance, _⟩, h3, h⟩ := h
    replace h := Option.bind_eq_some_iff.mp h
    obtain ⟨⟨deck, _⟩, h4, h⟩ := h
    replace h := Option.bind_eq_some_iff.mp h
    obtain ⟨⟨g, _⟩, h5, h⟩ := h
    dsimp only at h
    split at h
    · cases h
    rename_i groups
    replace h := Option.bind_eq_some_iff.mp h
    obtain ⟨⟨limits, _⟩, h6, h⟩ := h
    replace h := Option.bind_eq_some_iff.mp h
    obtain ⟨⟨p, _⟩, h7, h⟩ := h
    dsimp only at h
    split at h
    · cases h
    rename_i count
    simp only [Option.bind_eq_bind, Option.bind_eq_some_iff, Prod.exists, Option.some.injEq, Prod.mk.injEq] at h
    obtain ⟨positions, _, h8, plan, _, h9, cumulative, _, h10, loads, _, h11, rfl, rfl⟩ := h
    obtain ⟨l2, rfl⟩ := take4_reads.only h2
    obtain ⟨l3, rfl⟩ := take4_reads.only h3
    obtain ⟨l4, rfl⟩ := take2_reads.only h4
    obtain ⟨-, rfl⟩ := take1_reads.only h5
    obtain ⟨⟨rfl, l6⟩, rfl⟩ := (takeMany_reads take4_reads _).only h6
    obtain ⟨-, rfl⟩ := take1_reads.only h7
    obtain ⟨⟨rfl, l8⟩, rfl⟩ := (takeMany_reads takePosition_reads _).only h8
    obtain ⟨⟨plan_length, l9⟩, rfl⟩ := (takeMany_reads take1_reads _).only h9
    obtain ⟨l10, rfl⟩ := take4_reads.only h10
    obtain ⟨⟨loads_length, l11⟩, rfl⟩ := (takeMany_reads take4_reads _).only h11
    have code : (if (st == 2) = true then 2 else 1) = st := by
      have : st = 1 ∨ st = 2 := by omega
      rcases this with rfl | rfl <;> rfl
    refine ⟨⟨?_, ?_⟩, ?_⟩
    · simp only [truckOk, Bool.and_eq_true, decide_eq_true_eq, List.all_eq_true]
      exact ⟨⟨by omega, by omega, by omega, by omega, plan_length, loads_length⟩, fun q hq => (l8 q hq).1⟩
    · simp only [contentFits, Bool.and_eq_true, fitsIn_iff, List.all_eq_true]
      exact ⟨⟨⟨⟨⟨⟨⟨l2, l3⟩, l4⟩, l6⟩, fun q hq => (l8 q hq).2⟩, l9⟩, l10⟩, l11⟩
    · simp only [putContents, code, List.append_assoc]

end Sys2Proof.Machine.Codec
end

section
/-! Frames and their bytes (10.2, 10.3): header, payload and CRC. -/

namespace Sys2Proof.Machine.Codec

open Sys2Proof

/-! ## Payloads by kind -/

/-- A payload that passes R219 and fits its bytes. -/
def BodyGood (b : FrameBody) : Prop := formOk b = true ∧ bodyFits b = true

theorem bodyGood_beacon {b : Beacon} : BodyGood (.beacon b) ↔ BeaconGood b := by
  simp only [BodyGood, BeaconGood, EntryGood, formOk, bodyFits, Bool.and_eq_true, decide_eq_true_eq, List.all_eq_true,
    fitsIn_iff]
  exact ⟨fun ⟨⟨count, oks⟩, ⟨⟨⟨x, vx⟩, age⟩, seq⟩, fits⟩ => ⟨⟨count, fun e he => ⟨oks e he, fits e he⟩⟩, x, vx, age, seq⟩,
    fun ⟨⟨count, entries⟩, x, vx, age, seq⟩ => ⟨⟨count, fun e he => (entries e he).1⟩, ⟨⟨⟨x, vx⟩, age⟩, seq⟩,
      fun e he => (entries e he).2⟩⟩

theorem bodyGood_profile {p : Profile} : BodyGood (.profile p) ↔ ProfileGood p := by
  simp only [BodyGood, ProfileGood, formOk, bodyFits, Bool.and_eq_true, fitsIn_iff, true_and, and_assoc]
  rfl

theorem bodyGood_notice {n : Notice} : BodyGood (.notice n) ↔ NoticeGood n := by
  simp only [BodyGood, NoticeGood, formOk, bodyFits, Bool.and_eq_true, fitsIn_iff, and_assoc]
  rfl

theorem bodyGood_truckState {bay version : Nat} {c : TruckContent} :
    BodyGood (.truckState bay version c) ↔ bay < 256 ∧ version < 65536 ∧ TruckGood c := by
  simp only [BodyGood, TruckGood, formOk, bodyFits, Bool.and_eq_true, fitsIn_iff]
  exact ⟨fun ⟨ok, ⟨bay, version⟩, fits⟩ => ⟨bay, version, ok, fits⟩,
    fun ⟨bay, version, ok, fits⟩ => ⟨ok, ⟨bay, version⟩, fits⟩⟩

/-- The payload of a frame is read back by the reader of its kind. -/
theorem takeBody_payload {b : FrameBody} (h : BodyGood b) (r : List Byte) :
    takeBody (frameKind b) (payload b ++ r) = some (b, r) := by
  cases b with
  | join pattern x =>
    simp only [BodyGood, bodyFits, Bool.and_eq_true, fitsIn_iff] at h
    obtain ⟨-, hp, hx⟩ := h
    simp only [takeBody, frameKind, payload, List.append_assoc, take2_reads.back hp, take4_putS4, signed4_mod hx,
      Option.bind_eq_bind, Option.bind_some]
  | welcome pattern joiner =>
    simp only [BodyGood, bodyFits, Bool.and_eq_true, fitsIn_iff] at h
    obtain ⟨-, hp, hj⟩ := h
    simp only [takeBody, frameKind, payload, List.append_assoc, take2_reads.back hp, take1_reads.back hj,
      Option.bind_eq_bind, Option.bind_some]
  | beacon b => simp only [takeBody, frameKind, payload, takeBeacon_reads.back (bodyGood_beacon.mp h), Option.map_some]
  | profile p => simp only [takeBody, frameKind, payload, takeProfile_reads.back (bodyGood_profile.mp h), Option.map_some]
  | claim t prio =>
    simp only [BodyGood, bodyFits, Bool.and_eq_true, fitsIn_iff] at h
    obtain ⟨-, ht, hp⟩ := h
    obtain ⟨hk, hid⟩ := targetFits_bytes ht
    simp only [takeBody, frameKind, payload, List.append_assoc, take1_reads.back hk, take2_reads.back hid,
      take1_reads.back hp, targetOf_target ht, Option.bind_eq_bind, Option.bind_some]
  | release t =>
    obtain ⟨-, ht⟩ := h
    obtain ⟨hk, hid⟩ := targetFits_bytes ht
    simp only [takeBody, frameKind, payload, List.append_assoc, take1_reads.back hk, take2_reads.back hid,
      targetOf_target ht, Option.bind_eq_bind, Option.bind_some]
  | notice n => simp only [takeBody, frameKind, payload, takeNotice_reads.back (bodyGood_notice.mp h), Option.map_some]
  | truckState bay version c =>
    obtain ⟨hb, hv, hc⟩ := bodyGood_truckState.mp h
    simp only [takeBody, frameKind, payload, putTruck_eq, List.append_assoc, take1_reads.back hb, take2_reads.back hv,
      takeTruck_reads.back hc, Option.bind_eq_bind, Option.bind_some]

/-- A payload that is read is the bytes of a payload of that kind that passes R219. -/
theorem takeBody_only {k : Nat} {bs r : List Byte} {b : FrameBody} (h : takeBody k bs = some (b, r)) :
    frameKind b = k ∧ BodyGood b ∧ bs = payload b ++ r := by
  unfold takeBody at h
  split at h
  · simp only [Option.bind_eq_bind, Option.bind_eq_some_iff, Prod.exists, Option.some.injEq, Prod.mk.injEq] at h
    obtain ⟨pattern, _, h1, x, _, h2, rfl, rfl⟩ := h
    obtain ⟨hp, rfl⟩ := take2_reads.only h1
    obtain ⟨hx, rfl⟩ := take4_reads.only h2
    obtain ⟨fits, bytes⟩ := signed4_fits hx
    exact ⟨rfl, ⟨rfl, by simp [bodyFits, fitsIn_iff, hp, fits]⟩, by simp only [payload, bytes, List.append_assoc]⟩
  · simp only [Option.bind_eq_bind, Option.bind_eq_some_iff, Prod.exists, Option.some.injEq, Prod.mk.injEq] at h
    obtain ⟨pattern, _, h1, joiner, _, h2, rfl, rfl⟩ := h
    obtain ⟨hp, rfl⟩ := take2_reads.only h1
    obtain ⟨hj, rfl⟩ := take1_reads.only h2
    exact ⟨rfl, ⟨rfl, by simp [bodyFits, fitsIn_iff, hp, hj]⟩, by simp only [payload, List.append_assoc]⟩
  · simp only [Option.map_eq_some_iff, Prod.exists, Prod.mk.injEq] at h
    obtain ⟨b, _, h1, rfl, rfl⟩ := h
    obtain ⟨good, rfl⟩ := takeBeacon_reads.only h1
    exact ⟨rfl, bodyGood_beacon.mpr good, rfl⟩
  · simp only [Option.map_eq_some_iff, Prod.exists, Prod.mk.injEq] at h
    obtain ⟨p, _, h1, rfl, rfl⟩ := h
    obtain ⟨good, rfl⟩ := takeProfile_reads.only h1
    exact ⟨rfl, bodyGood_profile.mpr good, rfl⟩
  · simp only [Option.bind_eq_bind, Option.bind_eq_some_iff, Prod.exists, Option.some.injEq, Prod.mk.injEq] at h
    obtain ⟨k, _, h1, id, _, h2, prio, _, h3, rfl, rfl⟩ := h
    obtain ⟨hk, rfl⟩ := take1_reads.only h1
    obtain ⟨hid, rfl⟩ := take2_reads.only h2
    obtain ⟨hp, rfl⟩ := take1_reads.only h3
    obtain ⟨fits, kind, target⟩ := targetOf_fits hk hid
    exact ⟨rfl, ⟨rfl, by simp [bodyFits, fitsIn_iff, hp, fits]⟩, by simp only [payload, kind, target, List.append_assoc]⟩
  · simp only [Option.bind_eq_bind, Option.bind_eq_some_iff, Prod.exists, Option.some.injEq, Prod.mk.injEq] at h
    obtain ⟨k, _, h1, id, _, h2, rfl, rfl⟩ := h
    obtain ⟨hk, rfl⟩ := take1_reads.only h1
    obtain ⟨hid, rfl⟩ := take2_reads.only h2
    obtain ⟨fits, kind, target⟩ := targetOf_fits hk hid
    exact ⟨rfl, ⟨rfl, fits⟩, by simp only [payload, kind, target, List.append_assoc]⟩
  · simp only [Option.map_eq_some_iff, Prod.exists, Prod.mk.injEq] at h
    obtain ⟨n, _, h1, rfl, rfl⟩ := h
    obtain ⟨good, rfl⟩ := takeNotice_reads.only h1
    exact ⟨rfl, bodyGood_notice.mpr good, rfl⟩
  · simp only [Option.bind_eq_bind, Option.bind_eq_some_iff, Prod.exists, Option.some.injEq, Prod.mk.injEq] at h
    obtain ⟨bay, _, h1, version, _, h2, c, _, h3, rfl, rfl⟩ := h
    obtain ⟨hb, rfl⟩ := take1_reads.only h1
    obtain ⟨hv, rfl⟩ := take2_reads.only h2
    obtain ⟨hc, rfl⟩ := takeTruck_reads.only h3
    exact ⟨rfl, bodyGood_truckState.mpr ⟨hb, hv, hc⟩, by simp only [payload, putTruck_eq, List.append_assoc]⟩
  · cases h

/-! ## CRC -/

theorem checkCrc_withCrc (front : List Byte) : checkCrc (withCrc front) = some front := by
  have take : (withCrc front).take ((withCrc front).length - 2) = front := by
    simp [withCrc, put2]
  simp only [checkCrc, take]
  exact if_pos ⟨by simp [withCrc, put2], trivial⟩

theorem checkCrc_eq_some {bytes front : List Byte} (h : checkCrc bytes = some front) : bytes = withCrc front := by
  simp only [checkCrc] at h
  split at h
  · rename_i right
    cases h
    exact right.2
  · cases h

/-! ## The length of a payload -/

theorem putOpt4_length (v : Option Nat) : (putOpt4 v).length ≤ 4 := by cases v <;> simp [putOpt4, put4, put2]

theorem putOpt2_length (v : Option Nat) : (putOpt2 v).length ≤ 2 := by cases v <;> simp [putOpt2, put2]

theorem flatMap_length_le {α : Type} {f : α → List Byte} {n : Nat} (h : ∀ a, (f a).length ≤ n) (l : List α) :
    (l.flatMap f).length ≤ n * l.length := by
  induction l with
  | nil => simp
  | cons a l ih =>
    have := h a
    rw [List.flatMap_cons, List.length_append, List.length_cons, Nat.mul_add]
    omega

theorem putEntry_length (e : ClaimEntry) : (putEntry e).length ≤ 6 := by
  have := putOpt2_length e.version
  simp only [putEntry, put1, put2, List.length_append, List.length_cons, List.length_nil]
  omega

theorem putPosition_length (p : Position) : (putPosition p).length ≤ 23 := by
  have := putOpt4_length p.coilId
  have := putOpt4_length p.weight
  simp only [putPosition, put1, put2, put4, List.length_append, List.length_cons, List.length_nil]
  split
  · rw [List.length_append]
    omega
  · simp

/-- A payload that passes R219 is less than 256 bytes. -/
theorem payload_length {b : FrameBody} (h : formOk b = true) : (payload b).length < 256 := by
  cases b with
  | beacon b =>
    simp only [formOk, Bool.and_eq_true, decide_eq_true_eq] at h
    have := flatMap_length_le putEntry_length b.claims
    simp only [payload, putBeacon, put1, put2, putS4, put4, putS2, List.length_append, List.length_cons, List.length_nil]
    omega
  | notice n =>
    have := putOpt4_length n.coil.id
    have := putOpt4_length n.coil.weight
    have := putOpt2_length n.coil.diameter
    have := putOpt2_length n.coil.width
    simp only [payload, putNotice, put1, put2, List.length_append, List.length_cons, List.length_nil]
    omega
  | truckState bay version c =>
    cases c with
    | noTruck => simp [payload, putTruck, put1, put2]
    | present ready d cumulative loads =>
      simp only [formOk, truckOk, Bool.and_eq_true, decide_eq_true_eq] at h
      have limits := flatMap_length_le (f := put4) (n := 4) (fun _ => by simp [put4, put2]) d.limits
      have places := flatMap_length_le putPosition_length d.positions
      have plan := flatMap_length_le (f := put1) (n := 1) (fun _ => by simp [put1]) d.plan
      have sums := flatMap_length_le (f := put4) (n := 4) (fun _ => by simp [put4, put2]) loads
      simp only [payload, putTruck, List.length_append]
      have one (n : Nat) : (put1 n).length = 1 := rfl
      have two (n : Nat) : (put2 n).length = 2 := rfl
      have four (n : Nat) : (put4 n).length = 4 := rfl
      simp only [one, two, four]
      omega
  | _ => simp [payload, putProfile, put1, put2, putS4, put4]

/-! ## Runway frames -/

theorem frameKind_range (b : FrameBody) : 1 ≤ frameKind b ∧ frameKind b ≤ 8 := by cases b <;> simp [frameKind]

/-- A frame that passes R5 and R219 is read back as it was sent. -/
theorem decode_encode {f : Frame} (h : frameOk f = true) : decode (encode f) = some f := by
  simp only [frameOk, Bool.and_eq_true, decide_eq_true_eq, fitsIn_iff] at h
  obtain ⟨⟨⟨sender, serial⟩, form⟩, fits⟩ := h
  have kind := take1_reads.back (show frameKind f.body < 256 by have := frameKind_range f.body; omega)
  have len := take1_reads.back (payload_length form)
  have from_crane := take1_reads.back (show f.sender < 256 by omega)
  have number := take6_reads.back (show f.serial < 281474976710656 from serial)
  have body := takeBody_payload ⟨form, fits⟩ []
  rw [List.append_nil] at body
  simp only [decode, encode, checkCrc_withCrc, List.append_assoc, kind, len, from_crane, number, body,
    Option.bind_eq_bind, Option.bind_some]
  exact if_pos ⟨trivial, trivial, sender⟩

/-- Bytes that are read as a frame are the bytes of that frame, and it passes R5 and R219. -/
theorem decode_eq_some {bytes : List Byte} {f : Frame} (h : decode bytes = some f) :
    frameOk f = true ∧ encode f = bytes := by
  simp only [decode, Option.bind_eq_bind, Option.bind_eq_some_iff, Prod.exists] at h
  obtain ⟨front, h1, kind, _, h2, len, _, h3, sender, _, h4, serial, _, h5, body, rest, h6, h⟩ := h
  split at h
  · rename_i legal
    cases h
    obtain ⟨hlen, rfl, hsender⟩ := legal
    obtain ⟨-, rfl⟩ := take1_reads.only h2
    obtain ⟨-, rfl⟩ := take1_reads.only h3
    obtain ⟨-, rfl⟩ := take1_reads.only h4
    obtain ⟨hserial, rfl⟩ := take6_reads.only h5
    obtain ⟨rfl, ⟨form, fits⟩, rfl⟩ := takeBody_only h6
    rw [List.append_nil] at hlen
    refine ⟨by simp [frameOk, hsender, fitsIn_iff, hserial, form, fits], ?_⟩
    rw [checkCrc_eq_some h1]
    simp only [encode, hlen, List.append_assoc, List.append_nil]
  · cases h

/-! ## Crane port frames -/

theorem openPort_portFrame {kind seq : Nat} {body : List Byte} (hk : kind < 256) (hs : seq < 65536)
    (hb : body.length < 65536) :
    openPort (portFrame kind seq body) = some { kind := kind, length := body.length, seq := seq, payload := body } := by
  simp only [openPort, portFrame, checkCrc_withCrc, List.append_assoc, take1_reads.back hk, take2_reads.back hb,
    take2_reads.back hs, Option.bind_eq_bind, Option.bind_some]

theorem openPort_eq_some {bytes : List Byte} {h : PortFrame} (e : openPort bytes = some h) :
    bytes = withCrc (put1 h.kind ++ put2 h.length ++ put2 h.seq ++ h.payload) := by
  simp only [openPort, Option.bind_eq_bind, Option.bind_eq_some_iff, Prod.exists, Option.some.injEq] at e
  obtain ⟨front, h1, kind, _, h2, len, _, h3, seq, _, h4, rfl⟩ := e
  obtain ⟨-, rfl⟩ := take1_reads.only h2
  obtain ⟨-, rfl⟩ := take2_reads.only h3
  obtain ⟨-, rfl⟩ := take2_reads.only h4
  simp only [checkCrc_eq_some h1, List.append_assoc]

theorem putPosFrame_length (f : PositionFrame) : (putPosFrame f).length = 23 := by
  simp [putPosFrame, put1, put2, putS4, putS2, put4]

/-- The payload of a POSITION frame is read back as it was sent. -/
theorem takePosFrame_putPosFrame {f : PositionFrame} (h : positionFrameFits f = true) (r : List Byte) :
    takePosFrame (putPosFrame f ++ r) = some (f, r) := by
  simp only [positionFrameFits, Bool.and_eq_true, fitsIn_iff] at h
  obtain ⟨⟨⟨⟨⟨⟨⟨⟨seq, x⟩, y⟩, z⟩, vx⟩, vy⟩, vz⟩, az⟩, grip⟩ := h
  simp only [takePosFrame, putPosFrame, List.append_assoc, take2_reads.back seq, take4_putS4, take2_putS2,
    take1_reads.back grip, signed4_mod x, signed4_mod y, signed4_mod z, signed2_mod vx, signed2_mod vy, signed2_mod vz,
    signed2_mod az, Option.bind_eq_bind, Option.bind_some]

theorem decodePosition_encodePosition {f : PositionFrame} (h : positionFrameFits f = true) :
    decodePosition (encodePosition f) = some f := by
  have length := putPosFrame_length f
  have read := takePosFrame_putPosFrame h []
  rw [List.append_nil] at read
  rw [decodePosition, encodePosition, openPort_portFrame (by decide) (by decide) (by omega), Option.bind_some,
    if_pos rfl, positionOf, if_pos ⟨length, length⟩, read]
  rfl

/-- Settles O7: the readers of 10.2 and 10.3 read back what their writers write, and nothing else. -/
theorem framesAndBytesAgree : Obligations.FramesAndBytesAgree :=
  ⟨fun _ => decode_encode, fun _ _ => decode_eq_some, fun _ _ _ => openPort_portFrame, fun _ _ => openPort_eq_some,
    fun _ => decodePosition_encodePosition⟩

end Sys2Proof.Machine.Codec
end

section
/-! Envelopes of peers (R49 to R51). -/

namespace Sys2Proof.Machine

/-- The ceiling of a division by a positive number is the integer that reaches the dividend first. -/
theorem ceilDiv_spec {a b : Int} (h : 0 < b) : a ≤ b * ceilDiv a b ∧ b * (ceilDiv a b - 1) < a := by
  have division : b * (-a).fdiv b + (-a).fmod b = -a := Int.mul_fdiv_add_fmod (-a) b
  have low : 0 ≤ (-a).fmod b := Int.fmod_nonneg_of_pos _ h
  have high : (-a).fmod b < b := Int.fmod_lt_of_pos _ h
  have expand : b * (-(-a).fdiv b - 1) = -(b * (-a).fdiv b) - b := by ring
  rw [ceilDiv, expand, mul_neg]
  omega

/-- Settles O11: each term is a ceiling, with the values of the peer's class, and each edge a clamped sum. -/
theorem envelopeEdgesAreExact : Obligations.EnvelopeEdgesAreExact := by
  intro img now p field q age vmax dec resting clamped moving
  have hv : peerVmax img p = vmax := by simp [peerVmax, countsEmpty, peerProfile, vmax, q]
  have hd : peerDec img p = dec := by simp [peerDec, countsEmpty, peerProfile, dec, q]
  obtain ⟨stop, stopped⟩ := ceilDiv_spec (a := p.vx * p.vx) (b := 2 * dec) (by omega)
  obtain ⟨react, reacted⟩ := ceilDiv_spec (a := |p.vx| * q.reaction) (b := 1000) (by omega)
  refine ⟨growth img now p, _, _, fun rest => if_pos rest, fun moves => ?_, stop, stopped, react, reacted, ?_⟩
  · have grown : growth img now p = ceilDiv (age * vmax) 1000 := by
      rw [growth, if_neg moves, hv]
      rfl
    rw [grown]
    exact ceilDiv_spec (by omega)
  · have term : travelTerm img p = ceilDiv (p.vx * p.vx) (2 * dec) + ceilDiv (|p.vx| * q.reaction) 1000 := by
      rw [travelTerm, hd, mag_eq_abs]
      rfl
    simp only [envelope, term, clamp_eq field]
    rfl

end Sys2Proof.Machine
end

section
/-! The store geometry by rows and tiers (R97, R99), and the pick test (R114). -/

namespace Sys2Proof.Machine

/-! ## Existing slots -/

section
variable {img : Image} {id r p u : Nat} {row : Row} {up : Bool}

/-- An existing slot is the one whose id names its position, in a row that has the position (R97, R99). -/
theorem slotAt_iff : SlotAt img id r row up p ↔ slotPos id = ⟨r, up, p⟩ ∧ 1 ≤ id ∧ id ≤ 920
    ∧ rowAt img r = some row ∧ 1 ≤ p ∧ p ≤ tierCount row up := by
  have row_eq (h : 1 ≤ r) : rowAt img r = img.rows[r - 1]? := if_pos h
  constructor
  · rintro ⟨r1, r40, hr, p1, hp⟩
    rw [row_eq r1]
    cases up with
    | false =>
      obtain ⟨p12, hn, rfl⟩ := hp
      have low : ¬ 12 < ((r - 1) * 23 + p - 1) % 23 + 1 := by omega
      refine ⟨?_, by omega, by omega, hr, p1, hn⟩
      simp only [slotPos, low, if_false, decide_false, SlotPos.mk.injEq, true_and]
      omega
    | true =>
      obtain ⟨p11, hn, rfl⟩ := hp
      have high : 12 < ((r - 1) * 23 + 12 + p - 1) % 23 + 1 := by omega
      refine ⟨?_, by omega, by omega, hr, p1, by simp only [tierCount, if_true]; omega⟩
      simp only [slotPos, high, if_true, decide_true, SlotPos.mk.injEq, true_and]
      omega
  · rintro ⟨hpos, id1, id920, hr, p1, hp⟩
    obtain ⟨hrow, hup, hnum⟩ := SlotPos.mk.inj hpos
    have r1 : 1 ≤ r := by omega
    refine ⟨r1, by omega, row_eq r1 ▸ hr, p1, ?_⟩
    cases up with
    | false =>
      simp only [decide_eq_false_iff_not] at hup
      simp only [tierCount, Bool.false_eq_true, if_false] at hp
      rw [if_neg hup] at hnum
      exact ⟨by omega, hp, by omega⟩
    | true =>
      simp only [decide_eq_true_eq] at hup
      simp only [tierCount, if_true] at hp
      rw [if_pos hup] at hnum
      exact ⟨by omega, by omega, by omega⟩

theorem slotExists_iff : slotExists img id = true ↔ ∃ r row up p, SlotAt img id r row up p := by
  simp only [slotAt_iff, slotExists, Bool.and_eq_true, decide_eq_true_eq]
  constructor
  · rintro ⟨⟨id1, id920⟩, h⟩
    split at h
    · exact absurd h Bool.false_ne_true
    · rename_i row hr
      obtain ⟨p1, hp⟩ := of_decide_eq_true h
      exact ⟨_, row, _, _, rfl, id1, id920, hr, p1, hp⟩
  · rintro ⟨r, row, up, p, hpos, id1, id920, hr, p1, hp⟩
    simp only [hpos, hr, p1, hp, and_self, decide_true, id1, id920]

/-! ## Stacks -/

theorem mem_uppersOver : u ∈ uppersOver img r p ↔ ∃ row k, rowAt img r = some row ∧ (k = p ∨ k + 1 = p) ∧ 1 ≤ k
    ∧ k + 1 ≤ row.lanes.length ∧ u = slotId r true k := by
  unfold uppersOver
  cases hr : rowAt img r with
  | none => simp
  | some row =>
    simp only [List.mem_map, List.mem_filter, List.mem_cons, List.not_mem_nil, or_false, decide_eq_true_eq, tierCount,
      if_true, Option.some.injEq]
    constructor
    · rintro ⟨k, ⟨hk, k1, hn⟩, rfl⟩
      exact ⟨row, k, rfl, by omega, k1, by omega, rfl⟩
    · rintro ⟨_, k, rfl, hk, k1, hn, rfl⟩
      exact ⟨k, ⟨by omega, k1, by omega⟩, rfl⟩

theorem uppersOver_pairwise (h : 1 ≤ p) : (uppersOver img r p).Pairwise (· < ·) := by
  unfold uppersOver
  split
  · exact .nil
  · have rising : [p - 1, p].Pairwise (· < ·) := by simp; omega
    refine (rising.filter _).map _ fun a b hab => ?_
    simp only [slotId, if_true]
    omega

/-- The slots that rest on an existing lower slot are the upper ones over its position (R97). -/
theorem restsOn_iff : RestsOn img u id ↔ (slotPos id).upper = false ∧ slotExists img id = true
    ∧ u ∈ uppersOver img (slotPos id).row (slotPos id).p := by
  simp only [slotExists_iff, mem_uppersOver]
  have id_over (r k : Nat) : slotId r true k = (r - 1) * 23 + 12 + k := by simp only [slotId, if_true]; omega
  constructor
  · rintro ⟨r, row, p, k, at_id, hk, k1, hn, rfl⟩
    obtain ⟨hpos, -, -, hr, -, -⟩ := slotAt_iff.mp at_id
    rw [hpos]
    exact ⟨rfl, ⟨r, row, false, p, at_id⟩, row, k, hr, hk, k1, hn, (id_over r k).symm⟩
  · rintro ⟨low, ⟨r, row, up, p, at_id⟩, row', k, hr', hk, k1, hn, rfl⟩
    obtain ⟨hpos, -, -, hr, -, -⟩ := slotAt_iff.mp at_id
    rw [hpos] at low hr' hk
    obtain rfl : up = false := low
    obtain rfl : row' = row := Option.some.inj (hr'.symm.trans hr)
    rw [hpos]
    exact ⟨r, row', p, k, at_id, hk, k1, hn, id_over r k⟩

/-- The stack over a slot: the slots that rest on it and are OCCUPIED or UNKNOWN (R114). -/
theorem mem_stackOver {m : Smu} :
    u ∈ stackOver img m id ↔ RestsOn img u id ∧ ∃ r, slotRec m u = some r ∧ r.content ≠ .empty := by
  rw [restsOn_iff]
  unfold stackOver
  dsimp only
  split
  · rename_i none_over
    simp only [Bool.or_eq_true, Bool.not_eq_true'] at none_over
    simp only [List.not_mem_nil, false_iff]
    rintro ⟨⟨low, here, -⟩, -⟩
    rcases none_over with h | h
    · simp [low] at h
    · simp [here] at h
  · rename_i lower
    simp only [Bool.or_eq_true, Bool.not_eq_true', not_or, Bool.not_eq_true, Bool.not_eq_false] at lower
    rw [List.mem_filter]
    cases slotRec m u with
    | none => simp
    | some r => simp [lower]

theorem stackOver_pairwise (img : Image) (m : Smu) (id : Nat) : (stackOver img m id).Pairwise (· < ·) := by
  have number : 1 ≤ (slotPos id).p := by
    simp only [slotPos]
    split <;> omega
  unfold stackOver
  dsimp only
  split
  · exact .nil
  · exact (uppersOver_pairwise number).filter _

end

/-! ## The pick test -/

section
variable {s : State} {img : Image} {id : Nat} {v : SlotRec}

/-- A peer claims a target, in whatever state (R114). -/
def ClaimsTarget (s : State) (t : Target) (p : Peer) : Prop := p ∈ s.ptb.peers ∧ ∃ e ∈ p.claims, e.target = t

theorem entriesOn_nonempty {p : Peer} {t : Target} : (!(entriesOn p t).isEmpty) = true ↔ ∃ e ∈ p.claims, e.target = t := by
  simp [entriesOn]

theorem lowestClaimant_eq_none {t : Target} : lowestClaimant s t = none ↔ ∀ p, ¬ ClaimsTarget s t p := by
  simp only [lowestClaimant, Option.map_eq_none_iff, List.find?_eq_none, entriesOn_nonempty, ClaimsTarget, not_and]

/-- In a table by rising crane number the first claimant has the lowest number (R28). -/
theorem lowestClaimant_of_lowest {t : Target} {p : Peer} (sorted : s.ptb.peers.Pairwise fun p q => p.n < q.n)
    (hp : ClaimsTarget s t p) (lowest : ∀ q, ClaimsTarget s t q → p.n ≤ q.n) : lowestClaimant s t = some p.n := by
  obtain ⟨mem, claim⟩ := hp
  have claiming : (!(entriesOn p t).isEmpty) = true := entriesOn_nonempty.mpr claim
  obtain ⟨q, hq⟩ : ∃ q, s.ptb.peers.find? (fun q => !(entriesOn q t).isEmpty) = some q :=
    Option.isSome_iff_exists.mp (List.find?_isSome.mpr ⟨p, mem, claiming⟩)
  have hit := List.find?_some hq
  have found : ClaimsTarget s t q := ⟨List.mem_of_find?_eq_some hq, entriesOn_nonempty.mp hit⟩
  obtain ⟨-, before, after, split, unclaimed⟩ := List.find?_eq_some_iff_append.mp hq
  have first : q.n ≤ p.n := by
    rw [split] at mem sorted
    rcases List.mem_append.mp mem with h | h
    · exact absurd claiming (by simpa using unclaimed p h)
    · rcases List.mem_cons.mp h with rfl | h
      · exact le_rfl
      · exact (List.rel_of_pairwise_cons (List.pairwise_append.mp sorted).2.1 h).le
  rw [lowestClaimant, hq, Option.map_some, le_antisymm first (lowest q found)]

theorem pickTest_eq_noSlot (h : slotExists img id = true → slotRec s.smu id = none) : pickTest s img id = .noSlot := by
  unfold pickTest
  cases here : slotExists img id with
  | false => rfl
  | true => simp [h here]

/-- The pick test on a slot of the map: the rows of R114 behind the first. -/
theorem pickTest_of_found (here : slotExists img id = true) (record : slotRec s.smu id = some v) :
    pickTest s img id = if v.content ≠ .occupied then .notOccupied v.content
      else if v.blocked then .blocked
      else match lowestClaimant s (.slot id) with
        | some n => .claimed n
        | none => match stackOver img s.smu id with
          | [] => .eligible
          | ids => .buried ids := by
  simp only [pickTest, here, record]
  rfl

/-- The pick test on an OCCUPIED slot that is not blocked. -/
theorem pickTest_of_occupied (here : slotExists img id = true) (record : slotRec s.smu id = some v)
    (occupied : v.content = .occupied) (free : v.blocked = false) :
    (∀ n, lowestClaimant s (.slot id) = some n → pickTest s img id = .claimed n)
      ∧ (lowestClaimant s (.slot id) = none → stackOver img s.smu id = [] → pickTest s img id = .eligible)
      ∧ (lowestClaimant s (.slot id) = none → stackOver img s.smu id ≠ [] →
          pickTest s img id = .buried (stackOver img s.smu id)) := by
  rw [pickTest_of_found here record, if_neg (not_not.mpr occupied), free]
  refine ⟨fun n h => by rw [h]; rfl, fun h bare => by rw [h, bare]; rfl, fun h stack => ?_⟩
  rw [h]
  cases hs : stackOver img s.smu id with
  | nil => exact absurd hs stack
  | cons u us => rfl

end

/-- Settles O14: the rows of the test in their order, with the lowest claimant and the stack as lists of the table. -/
theorem pickTestAnswersInOrder : Obligations.PickTestAnswersInOrder := by
  intro s img id sorted ans claims stands found
  have found_iff : found ↔ slotExists img id = true ∧ ∃ v, slotRec s.smu id = some v := by
    rw [slotExists_iff]
    exact ⟨fun ⟨r, row, up, p, v, at_id, record⟩ => ⟨⟨r, row, up, p, at_id⟩, v, record⟩,
      fun ⟨⟨r, row, up, p, at_id⟩, v, record⟩ => ⟨r, row, up, p, v, at_id, record⟩⟩
  have stacked (u : Nat) : u ∈ stackOver img s.smu id ↔ stands u := mem_stackOver
  refine ⟨fun absent => pickTest_eq_noSlot fun here => ?_, fun v hf record => ?_⟩
  · cases record : slotRec s.smu id with
    | none => rfl
    | some v => exact absurd (found_iff.mpr ⟨here, v, record⟩) absent
  obtain ⟨here, -⟩ := found_iff.mp hf
  have rows : ans = _ := pickTest_of_found here record
  refine ⟨fun h => rows.trans (if_pos h), fun h blocked => ?_, fun h free => ?_⟩
  · rw [rows, if_neg (not_not.mpr h), if_pos blocked]
  obtain ⟨claimed, eligible, buried⟩ := pickTest_of_occupied here record h free
  refine ⟨fun p hp lowest => claimed _ (lowestClaimant_of_lowest sorted hp lowest),
    fun none_claims none_stands => eligible (lowestClaimant_eq_none.mpr none_claims) ?_, fun none_claims some_stands => ?_⟩
  · exact List.eq_nil_iff_forall_not_mem.mpr fun u hu => none_stands u ((stacked u).mp hu)
  · obtain ⟨u, hu⟩ := some_stands
    exact ⟨_, buried (lowestClaimant_eq_none.mpr none_claims) (List.ne_nil_of_mem ((stacked u).mpr hu)),
      stackOver_pairwise img s.smu id, stacked⟩

end Sys2Proof.Machine
end

section
/-! The reads: what each answers, and that it changes nothing else (R45, R124, R150, R171, R198, R211, R212). -/

namespace Sys2Proof.Machine

/-! ## A read served -/

section
variable {s : State} {tag : ReqTag} {r : Request}

/-- A read is served in every node state that takes requests (R200, R201). -/
theorem takeRequest_read (h : TakesNow s tag r) (hr : isRead (reqKind r) = true)
    (serve : State → ReqTag → Request → State) : takeRequest s (reqKind r) serve = serve (dropRequest s) tag r := by
  obtain ⟨hn, -, -⟩ := h.1
  rw [takeRequest_takesNow h, acceptedIn_of_isRead hr, if_pos (bne_iff_ne.mpr hn)]

end

section
variable {s : State} {tag : ReqTag}

theorem exec_readStatus (h : TakesNow s tag .readStatus) :
    exec .readStatus s = .next (afterAnswer s tag .readStatus .ok .none (.status (viewStatus s))) := by
  change Host.Outcome.next (takeRequest s (reqKind .readStatus) _) = _
  rw [takeRequest_read h rfl, answer_dropRequest]
  rfl

theorem exec_readSlot {id : Nat} (h : TakesNow s tag (.readSlot id)) :
    exec .readSlot s = .next (if 1 ≤ id ∧ id ≤ 920 then afterAnswer s tag (.readSlot id) .ok .none (.slot (viewSlot s id))
      else afterAnswer s tag (.readSlot id) .badArg .argument .none) := by
  change Host.Outcome.next (takeRequest s (reqKind (.readSlot id)) serveReadSlot) = _
  simp only [takeRequest_read h rfl, serveReadSlot, answer_dropRequest]
  rfl

theorem exec_readSlots {start count : Nat} (h : TakesNow s tag (.readSlots start count)) :
    exec .readSlots s = .next (
      let q : Request := .readSlots start count
      let n := streamLength s count
      let v := afterAnswer s tag q .ok .none (.count n)
      if ¬(1 ≤ start ∧ start ≤ 920 ∧ 1 ≤ count ∧ count ≤ 920) then afterAnswer s tag q .badArg .argument .none
      else if s.cpt.stream.isSome then afterAnswer s tag q .busy .none .none
      else if n = 0 then v
      else { v with cpt.stream := some { seq := tag.seq, next := start, k := 1, n := n } }) := by
  change Host.Outcome.next (takeRequest s (reqKind (.readSlots start count)) serveReadSlots) = _
  simp only [takeRequest_read h rfl, serveReadSlots, answer_dropRequest]
  rfl

theorem exec_readPeer {n : Nat} (h : TakesNow s tag (.readPeer n)) :
    exec .readPeer s = .next (if ¬(1 ≤ n ∧ n ≤ 8) ∨ s.rlc.craneNo = some n
      then afterAnswer s tag (.readPeer n) .badArg .argument .none
      else afterAnswer s tag (.readPeer n) .ok .none (.peer n (peerAt s.ptb n) (trackAt s.smu n))) := by
  change Host.Outcome.next (takeRequest s (reqKind (.readPeer n)) serveReadPeer) = _
  simp only [takeRequest_read h rfl, serveReadPeer, answer_dropRequest]
  rfl

theorem exec_readTruck {bay : Nat} (h : TakesNow s tag (.readTruck bay)) :
    exec .readTruck s = .next (if 1 ≤ bay ∧ bay ≤ 4 then afterAnswer s tag (.readTruck bay) .ok .none (viewBay s bay)
      else afterAnswer s tag (.readTruck bay) .badArg .argument .none) := by
  change Host.Outcome.next (takeRequest s (reqKind (.readTruck bay)) serveReadTruck) = _
  simp only [takeRequest_read h rfl, serveReadTruck, answer_dropRequest]
  rfl

theorem exec_readOrder {id : Nat} (h : TakesNow s tag (.readOrder id)) :
    exec .readOrder s = .next ((viewOrder s id).elim (afterAnswer s tag (.readOrder id) .refused .noOrder .none)
      fun v => afterAnswer s tag (.readOrder id) .ok .none (.order v)) := by
  change Host.Outcome.next (takeRequest s (reqKind (.readOrder id)) serveReadOrder) = _
  have same : viewOrder (dropRequest s) id = viewOrder s id := rfl
  simp only [takeRequest_read h rfl, serveReadOrder, answer_dropRequest, same]
  cases viewOrder s id <;> rfl

end

/-! ## Counts -/

/-- Three conditions of which each element meets exactly one share the list out. -/
theorem length_filter_of_one {α : Type} {p q r : α → Bool} (one : ∀ a, (p a).toNat + (q a).toNat + (r a).toNat = 1)
    (l : List α) : (l.filter p).length + (l.filter q).length + (l.filter r).length = l.length := by
  have counted (f : α → Bool) (a : α) (l : List α) : ((a :: l).filter f).length = (f a).toNat + (l.filter f).length := by
    rw [List.filter_cons]
    cases f a <;> simp [Nat.add_comm]
  induction l with
  | nil => rfl
  | cons a l ih =>
    rw [counted, counted, counted, List.length_cons]
    have := one a
    omega

theorem countSlots_contents (m : Smu) : countSlots m (fun r => r.content == .unknown)
    + countSlots m (fun r => r.content == .empty) + countSlots m (fun r => r.content == .occupied) = m.slots.length :=
  length_filter_of_one (fun t => by dsimp only; cases t.data.content <;> rfl) m.slots

theorem isNoTruck_eq (t : Truck) : isNoTruck t = (t.content == .noTruck) := by
  unfold isNoTruck
  cases t.content with
  | noTruck => rfl
  | present => rfl

theorem countTrucks (q : PerBay Truck) : (q.toList.filter isNoTruck).length + (q.toList.filter isHeldTruck).length
    + (q.toList.filter isReadyTruck).length = 4 :=
  length_filter_of_one (fun t => by
    unfold isNoTruck isHeldTruck isReadyTruck
    cases t.content with
    | noTruck => rfl
    | present ready => cases ready <;> rfl) q.toList

/-- The records that meet a condition, counted by their bays. -/
theorem length_filter_toList (q : PerBay Truck) (f : Truck → Bool) :
    (q.toList.filter f).length = ([1, 2, 3, 4].filter fun b => f (q.get b)).length := by
  have bays : q.toList = [1, 2, 3, 4].map q.get := rfl
  rw [bays, List.filter_map, List.length_map]
  rfl

/-- The highest version seen of a bay is the greatest that the records hold, and 0 without one (R41, R155). -/
theorem highestSeen_spec (t : Ptb) (bay : Nat) : (∀ p ∈ t.peers, p.versions.get bay ≤ highestSeen t bay)
    ∧ (highestSeen t bay = 0 ∨ ∃ p ∈ t.peers, highestSeen t bay = p.versions.get bay) := by
  have folded (l : List Peer) (v : Nat) :
      let h := l.foldl (fun v q => max v (q.versions.get bay)) v
      v ≤ h ∧ (∀ p ∈ l, p.versions.get bay ≤ h) ∧ (h = v ∨ ∃ p ∈ l, h = p.versions.get bay) := by
    induction l generalizing v with
    | nil => simp
    | cons q l ih =>
      obtain ⟨start, all, reached⟩ := ih (max v (q.versions.get bay))
      refine ⟨(le_max_left _ _).trans start, ?_, ?_⟩
      · rintro p (_ | ⟨_, hp⟩)
        · exact (le_max_right _ _).trans start
        · exact all p hp
      · rw [List.foldl_cons]
        rcases reached with h | ⟨p, hp, h⟩
        · rcases max_choice v (q.versions.get bay) with hm | hm
          · exact .inl (h.trans hm)
          · exact .inr ⟨q, List.mem_cons_self, h.trans hm⟩
        · exact .inr ⟨p, List.mem_cons_of_mem _ hp, h⟩
  exact ⟨(folded t.peers 0).2.1, (folded t.peers 0).2.2⟩

/-! ## Views -/

section
variable {s : State} {id bay : Nat}

theorem mem_peerClaimsOn {p : Ptb} {t : Target} {n : Nat} {held : Bool} : (⟨n, held⟩ : PeerClaim) ∈ peerClaimsOn p t
    ↔ ∃ q ∈ p.peers, q.n = n ∧ ∃ e ∈ q.claims, e.target = t ∧ e.held = held := by
  simp only [peerClaimsOn, List.mem_flatMap, List.mem_map, entriesOn, List.mem_filter, beq_iff_eq, PeerClaim.mk.injEq]
  constructor
  · rintro ⟨q, hq, e, ⟨he, ht⟩, hn, hh⟩
    exact ⟨q, hq, hn, e, he, ht, hh⟩
  · rintro ⟨q, hq, hn, e, he, ht, hh⟩
    exact ⟨q, hq, e, ⟨he, ht⟩, hn, hh⟩

theorem viewSlot_id : (viewSlot s id).id = id := by
  unfold viewSlot
  split
  · rfl
  · split <;> rfl

theorem viewSlot_absent (h : ∀ img, s.cpt.image = some img → slotExists img id = false) : (viewSlot s id).data = none := by
  unfold viewSlot
  split
  · rfl
  · rename_i img image
    have nowhere : slotPlace img id = none := by simp [slotPlace, h img image]
    rw [nowhere]
    rfl

theorem viewSlot_of {img : Image} {p : Place} {r : SlotRec} (image : s.cpt.image = some img)
    (place : slotPlace img id = some p) (record : slotRec s.smu id = some r) : viewSlot s id =
      { id := id, data := some r, upper := (slotPos id).upper, x := p.x, y := p.y, seat := p.seat,
        top := recTop img (slotPos id).upper r,
        columnTop := if (slotPos id).upper then none
          else some (columnTop img s.smu (slotPos id).row (slotPos id).p),
        ownClaim := claimState s (.slot id), peerClaims := peerClaimsOn s.ptb (.slot id) } := by
  simp only [viewSlot, image, place, record]

theorem viewBay_unbound (h : ∀ img, s.cpt.image = some img → bayZone img bay = none) :
    viewBay s bay = .noBay (s.tbu.trucks.get bay) := by
  have unbound : (s.cpt.image.bind fun img => bayTarget img bay) = none := by
    cases image : s.cpt.image with
    | none => rfl
    | some img => simp [bayTarget, h img image]
  rw [viewBay, unbound]
  rfl

theorem viewBay_bound {img : Image} {zn : Zone} (image : s.cpt.image = some img) (zone : bayZone img bay = some zn) :
    viewBay s bay = .bay
      { truck := s.tbu.trucks.get bay, required := s.tbu.required.get bay, stale := bayStale s.tbu bay,
        highest := highestSeen s.ptb bay, claim := claimState s (.zone zn.id), request := s.tbu.requests.get bay,
        requestAge := match s.tbu.requests.get bay with
          | none => 0
          | some q => s.now - q.acceptedAt } := by
  simp only [viewBay, image, Option.bind_some, bayTarget, zone, Option.map_some]
  rfl

theorem mem_orderClaimViews {t : Target} {st : ClaimState} : (⟨t, st⟩ : ClaimView) ∈ orderClaimViews s
    ↔ ∃ c ∈ s.clu.claims, .order ∈ c.holders ∧ c.target = t ∧ c.state = st := by
  simp only [orderClaimViews, List.mem_map, List.mem_filter, List.contains_iff_mem, ClaimView.mk.injEq, and_assoc]

/-- The active order is found first (R198). -/
theorem viewOrder_active {a : Active} (active : s.moc.active = some a) (h : a.ord.id = id) :
    viewOrder s id = some (.active a (orderClaimViews s)) := by
  simp only [viewOrder, active, Option.bind_some, if_pos h]

/-- Behind the active order a waiting one is found, and then the newest ended one (R198). -/
theorem viewOrder_inactive (h : ∀ a, s.moc.active = some a → a.ord.id ≠ id) :
    (∀ o, (s.moc.waiting.find? fun o => o.id == id) = some o → viewOrder s id = some (.queued o))
      ∧ ((∀ o ∈ s.moc.waiting, o.id ≠ id) →
          viewOrder s id = (s.moc.ended.find? fun e => e.ord.id == id).map .ended) := by
  have other : (s.moc.active.bind fun a => if a.ord.id = id then some a else none) = none := by
    cases active : s.moc.active with
    | none => rfl
    | some a => exact if_neg (h a active)
  refine ⟨fun o waits => ?_, fun none_waits => ?_⟩
  · rw [viewOrder, other, waits]
  · have unmatched : (s.moc.waiting.find? fun o => o.id == id) = none :=
      List.find?_eq_none.mpr fun o ho => by simpa using none_waits o ho
    rw [viewOrder, other, unmatched]

/-- The state of the image as READ_STATUS gives it (R214). -/
theorem imageState_spec (c : Cpt) : (c.image ≠ none → imageState c = .validated)
    ∧ (c.image = none → c.draft = [] → imageState c = .none) ∧ (c.image = none → c.draft ≠ [] → imageState c = .partly) := by
  unfold imageState
  cases c.image with
  | some img => simp
  | none => cases c.draft <;> simp

theorem weighView_spec (w : Wgu) : (∀ c, w.capture = some c → weighView w = .capturing c.kind)
    ∧ (w.capture = none → weighView w = .base w.base) := by
  unfold weighView
  cases w.capture <;> simp

end

/-- Settles O59: each read by what its view holds, behind the one step that takes it. -/
theorem readsAnswerWithTheState : Obligations.ReadsAnswerWithTheState := by
  unfold Obligations.ReadsAnswerWithTheState
  intro counts live bays claimed
  refine ⟨fun s tag h => ?_, fun s tag id h => ⟨fun low high => ?_, fun out => ?_⟩, fun s tag start count h => ?_,
    fun s tag n h => ?_, fun s tag bay h => ⟨fun out => ?_, fun low high => ⟨fun unbound => ?_, fun img zn image zone => ?_⟩⟩,
    fun s tag id h => ⟨fun a active same => ?_, fun other => ?_⟩⟩
  · obtain ⟨validated, empty, partly⟩ := imageState_spec s.cpt
    obtain ⟨capturing, base⟩ := weighView_spec s.wgu
    have trucks (f : Truck → Bool) (g : TruckContent → Bool) (same : ∀ t : Truck, f t = g t.content) :
        (s.tbu.trucks.toList.filter f).length = bays s g := by
      rw [length_filter_toList, funext same]
    exact ⟨viewStatus s, exec_readStatus h, rfl, rfl, rfl, rfl, rfl, rfl, validated, empty, partly, rfl, rfl, rfl, rfl,
      rfl, rfl, rfl, rfl, rfl, rfl, rfl, rfl, rfl, rfl, rfl, rfl, capturing, base, rfl, rfl, rfl, rfl, rfl, rfl, rfl, rfl,
      rfl, beq_iff_eq, rfl, rfl, rfl, countSlots_contents s.smu, rfl, rfl,
      trucks isNoTruck (fun c => c == .noTruck) isNoTruck_eq,
      trucks isHeldTruck (fun c => isHeldTruck { version := 0, content := c }) fun _ => rfl,
      countTrucks _, rfl, by simp [viewStatus, queueIds], rfl, rfl, rfl⟩
  · refine ⟨viewSlot s id, by rw [exec_readSlot h, if_pos ⟨low, high⟩], viewSlot_id, viewSlot_absent,
      fun img p r image place record => ?_⟩
    rw [viewSlot_of image place record]
    exact ⟨rfl, rfl, rfl, rfl, rfl, rfl, rfl, rfl, fun _ _ => mem_peerClaimsOn⟩
  · rw [exec_readSlot h, if_neg (by omega)]
  · intro q good n v
    rw [exec_readSlots h]
    refine ⟨fun bad => by rw [if_pos bad], fun fine busy => ?_, fun fine free nothing => ?_, fun fine free more => ?_⟩
    · rw [if_neg (not_not.mpr fine), if_pos (Option.isSome_iff_ne_none.mpr busy)]
    · rw [if_neg (not_not.mpr fine), if_neg (by simp [free]), if_pos (c := streamLength s count = 0) nothing]
      rfl
    · rw [if_neg (not_not.mpr fine), if_neg (by simp [free]),
        if_neg (c := streamLength s count = 0) (Nat.one_le_iff_ne_zero.mp more)]
      rfl
  · intro q
    rw [exec_readPeer h]
    exact ⟨fun low high other => by rw [if_neg (by simp [low, high, other])],
      fun bad => by rw [if_pos (bad.elim (fun e => .inl (by omega)) (.imp_left fun e => by omega))]⟩
  · rw [exec_readTruck h, if_neg (by omega)]
  · rw [exec_readTruck h, if_pos ⟨low, high⟩, viewBay_unbound unbound]
  · rw [exec_readTruck h, if_pos ⟨low, high⟩, viewBay_bound image zone]
    obtain ⟨all, reached⟩ := highestSeen_spec s.ptb bay
    refine ⟨_, rfl, rfl, rfl, decide_eq_true_iff, rfl, all, reached, rfl, fun r request => ?_⟩
    simp only [request]
  · rw [exec_readOrder h, viewOrder_active active same]
    exact ⟨_, rfl, fun _ _ => mem_orderClaimViews⟩
  · obtain ⟨queued, ended⟩ := viewOrder_inactive other
    rw [exec_readOrder h]
    refine ⟨fun o waits => by rw [queued o waits]; rfl, fun none_waits => ?_⟩
    rw [ended none_waits]
    refine ⟨fun e found => by rw [found]; rfl, fun none_ended => ?_⟩
    have unmatched : (s.moc.ended.find? fun e => e.ord.id == id) = none :=
      List.find?_eq_none.mpr fun e he => by simpa using none_ended e he
    rw [unmatched]
    rfl

end Sys2Proof.Machine
end

section
/-! A PROFILE: the record it leaves by what the table holds of the number (R29, R31, R33, R35). -/

namespace Sys2Proof.Machine

section
variable {s t v : State} {n serial : Nat} {f : Profile} {p q : Peer}

/-- A state with an event raised, unless a check has passed. -/
def unlessOk (ok : Bool) (v : State) (e : Event) : State := if ok then v else v.emit e

/-- A record put into the table behind a check: the check's failure is reported. -/
theorem recorded_unlessOk {ok : Bool} {e : Event} (h : Moves false s v) (k : Moves false (putPeer (unlessOk ok v e) q) t) :
    Recorded s q t ∧ (ok = false → Reports s t e) := by
  cases ok with
  | true => exact ⟨⟨v, h, k⟩, fun failed => by cases failed⟩
  | false => exact ⟨⟨v.emit e, h.emit e, k⟩, fun _ => .of_emit h.logs k.logs⟩

theorem takeProfile_known (hk : knownPeer s n serial = some p) : Moves false
    (putPeer (unlessOk (profileOk s.cpt.image f) (reportBack s p) (.peerProfileBad n))
      { p.revived s.now with profile := if profileOk s.cpt.image f then some f else p.profile })
    (takeProfile s n serial f) := by
  simp only [takeProfile, hk]
  exact .ite (recordChanged_moves (.refl _)) (.ite (Moves.refl _).compute (.refl _))

theorem takeProfile_started (unknown : knownPeer s n serial = none) (hs : startRecord s n serial = (v, some p)) :
    Moves false
      (putPeer (unlessOk (profileOk s.cpt.image f) v (.peerProfileBad n))
        { p with profile := if profileOk s.cpt.image f then some f else none })
      (takeProfile s n serial f) := by
  simp only [takeProfile, unknown, hs]
  exact recordChanged_moves (.refl _)

theorem startRecord_of_other (hat : peerAt s.ptb n = some p) : startRecord s n serial
    = (s.emit (.peerReplaced n serial), some { Peer.fresh n serial s.now with versions := p.versions }) := by
  simp only [startRecord, hat]

theorem startRecord_of_room (hat : peerAt s.ptb n = none) (room : s.ptb.peers.length < 7) :
    startRecord s n serial = (s.emit (.peerNew n serial), some (Peer.fresh n serial s.now)) := by
  simp only [startRecord, hat, if_neg (Nat.not_le.mpr room)]

theorem startRecord_of_full (hat : peerAt s.ptb n = none) (full : 7 ≤ s.ptb.peers.length) :
    startRecord s n serial = (tellFull s, none) := by
  simp only [startRecord, hat, if_pos full]

theorem knownPeer_of_none (hat : peerAt s.ptb n = none) : knownPeer s n serial = none :=
  knownPeer_of_ne fun p hp => by rw [hat] at hp; cases hp

theorem knownPeer_of_other (hat : peerAt s.ptb n = some p) (hs : p.serial ≠ serial) : knownPeer s n serial = none :=
  knownPeer_of_ne fun _ hq => Option.some.inj (hat.symm.trans hq) ▸ hs

theorem execRxProfile_of (h : Routed s n serial (.profile f)) :
    exec (.rxProfile n serial f) s = .next (State.finish (takeProfile s n serial f)) := by
  change execRxProfile n serial f s = _
  rw [execRxProfile, receive_routed h]

theorem profileOk_iff (img : Option Image) (f : Profile) : profileOk img f = true ↔ img = none ∨ profileInRange f = true := by
  simp [profileOk]

end

/-- Settles O26: the record put into the table, by what the table holds of the number, behind the check of the values. -/
theorem profileIsTakenInRange : Obligations.ProfileIsTakenInRange := by
  intro s n serial f h good taken ends
  have taken_eq (old : Option Profile) : (if profileOk s.cpt.image f then some f else old) = taken old :=
    if_congr (profileOk_iff _ f) rfl rfl
  have ends_of : ∀ {v : State} {q : Peer}, Moves false s v →
      Moves false (putPeer (unlessOk (profileOk s.cpt.image f) v (.peerProfileBad n)) q) (takeProfile s n serial f) →
      q.n = n → ends q := by
    rintro v q before put rfl
    obtain ⟨recorded, reports⟩ := recorded_unlessOk before (put.trans (finish_moves _))
    obtain ⟨found, others⟩ := recorded.lookup
    exact ⟨_, execRxProfile_of h, found, others, recorded.frame,
      fun bad => reports (Bool.eq_false_iff.mpr (mt (profileOk_iff _ f).mp bad))⟩
  refine ⟨fun p hat hs => ?_, fun p hat hs => ?_, fun hat room => ?_, fun hat full => ?_⟩
  · have put := takeProfile_known (f := f) (knownPeer_eq_some.mpr ⟨hat, hs⟩)
    rw [taken_eq] at put
    exact ends_of (reportBack_moves (.refl s) p) put (mem_of_peerAt hat).2
  · have put := takeProfile_started (f := f) (knownPeer_of_other hat hs) (startRecord_of_other hat)
    rw [taken_eq] at put
    exact ends_of ((Moves.refl s).emit _) put rfl
  · have put := takeProfile_started (serial := serial) (f := f) (knownPeer_of_none hat) (startRecord_of_room hat room)
    rw [taken_eq] at put
    exact ends_of ((Moves.refl s).emit _) put rfl
  · have refused : takeProfile s n serial f = tellFull s := by
      simp only [takeProfile, knownPeer_of_none hat, startRecord_of_full hat full]
    obtain ⟨full_ptb, full_frame, -⟩ := tellFull_spec s
    have ptb := (finish_frame (tellFull s)).ptb
    rw [execRxProfile_of h, refused]
    exact ⟨_, rfl, ptb.trans full_ptb, ptb ▸ full_frame.trans (finish_frame _)⟩

end Sys2Proof.Machine
end

section
/-! SUPPORT. The notice tracking (R42 to R44): what it holds of a number, and what a BEACON's sequence makes of it. -/

namespace Sys2Proof.Machine

section
variable {s t u v : State} {m : Smu} {n serial seq last : Nat}

/-- The last sequence applied of a sender and serial, 0 where none is known (R42). -/
def lastApplied (m : Smu) (n serial : Nat) : Nat := (trackFor m n serial).last.getD 0

theorem lastApplied_eq (m : Smu) (n serial : Nat) : lastApplied m n serial = match trackAt m n with
    | none => 0
    | some t => if t.serial = serial then t.last.getD 0 else 0 := by
  unfold lastApplied trackFor
  cases trackAt m n with
  | none => rfl
  | some t => by_cases h : t.serial = serial <;> simp [h]

theorem trackFor_n (m : Smu) (n serial : Nat) : (trackFor m n serial).n = n := by
  unfold trackFor
  split
  · rfl
  · split
    · simpa using List.find?_some ‹trackAt m n = some _›
    · rfl

theorem trackFor_serial (m : Smu) (n serial : Nat) : (trackFor m n serial).serial = serial := by
  unfold trackFor
  split
  · rfl
  · split
    · assumption
    · rfl

/-- The tracking entry of a sender and serial has their numbers. -/
theorem trackFor_eq (m : Smu) (n serial : Nat) :
    trackFor m n serial = { n := n, serial := serial, last := (trackFor m n serial).last } := by
  have number := trackFor_n m n serial
  have of_serial := trackFor_serial m n serial
  generalize trackFor m n serial = t at number of_serial ⊢
  subst number of_serial
  rfl

theorem trackAt_putTrack (s : State) (t : Track) (k : Nat) :
    trackAt (putTrack s t).smu k = if k = t.n then some t else trackAt s.smu k := by
  simp only [trackAt, putTrack_smu, List.find?_append, List.find?_filter]
  split
  · rename_i h
    have cleared : (s.smu.tracking.find? fun u => decide ((u.n != t.n) = true ∧ (u.n == k) = true)) = none := by
      simp [h]
    rw [cleared]
    simp [h]
  · rename_i h
    have other : (fun u : Track => decide ((u.n != t.n) = true ∧ (u.n == k) = true)) = fun u => u.n == k := by
      funext u
      by_cases hu : u.n = k <;> simp [hu, h]
    have apart : (t.n == k) = false := by simpa using fun e => h e.symm
    rw [other]
    simp [apart]

theorem isBehind_iff : isBehind last seq = true ↔ (seq = 0 ∧ last ≠ 0) ∨ (seq ≠ 0 ∧ 32768 ≤ aheadBy last seq) := by
  unfold isBehind
  by_cases h : seq = 0 <;> simp [h]

/-- The tracking entry of a sender is put into the map's tracking, and else the map stays. -/
structure TrackPut (s : State) (t : Track) (u : State) : Prop where
  slots : u.smu.slots = s.smu.slots
  own : trackAt u.smu t.n = some t
  others : ∀ m, m ≠ t.n → trackAt u.smu m = trackAt s.smu m

theorem putTrack_put (s : State) (t : Track) : TrackPut s t (putTrack s t) where
  slots := rfl
  own := by rw [trackAt_putTrack, if_pos rfl]
  others m hm := by rw [trackAt_putTrack, if_neg hm]

theorem TrackPut.of_smu {t : Track} {v w : State} (h : TrackPut v t w) (hs : v.smu = s.smu) (hu : u.smu = w.smu) :
    TrackPut s t u :=
  ⟨by rw [hu, h.slots, hs], by rw [hu, h.own], fun m hm => by rw [hu, h.others m hm, hs]⟩

/-- What the check of a BEACON's sequence reports, and the last sequence it leaves applied (R44). -/
structure SeqChecked (s : State) (n seq last : Nat) (kept : Option Nat) (u : State) : Prop where
  resync : isBehind last seq = true → Raised s u (.mapResync n seq)
  none : isBehind last seq = true → seq ≤ 3 → kept = none
  again : isBehind last seq = true → 4 ≤ seq → kept = some (threeBefore seq) ∧ Raised s u (.mapGap n 0 seq)
  near : isBehind last seq = false → aheadBy last seq ≤ 3 → kept.getD 0 = last
  gap : isBehind last seq = false → 4 ≤ aheadBy last seq →
    kept = some (threeBefore seq) ∧ Raised s u (.mapGap n last seq)

/-- Moves before and behind the check leave its reports. -/
theorem SeqChecked.within {kept : Option Nat} (h : SeqChecked t n seq last kept u) (before : Logs s.cpt t.cpt)
    (after : Logs u.cpt v.cpt) : SeqChecked s n seq last kept v where
  resync hb := ((h.resync hb).before before).after after
  none := h.none
  again hb hk := ⟨(h.again hb hk).1, ((h.again hb hk).2.before before).after after⟩
  near := h.near
  gap hb ha := ⟨(h.gap hb ha).1, ((h.gap hb ha).2.before before).after after⟩

theorem checkBeaconSeq_of_config (h : s.rlc.nodeState = .config) : checkBeaconSeq s n serial seq = s := if_pos h

/-- A tracking entry of a sender set to a last sequence. -/
def putLast (s : State) (n serial : Nat) (last : Option Nat) : State := putTrack s { n := n, serial := serial, last := last }

/-- The check of a BEACON's sequence outside CONFIG (R44). -/
theorem checkBeaconSeq_eq (h : s.rlc.nodeState ≠ .config) : checkBeaconSeq s n serial seq =
    let last := lastApplied s.smu n serial
    if isBehind last seq then
      if seq ≤ 3 then putLast (s.emit (.mapResync n seq)) n serial none
      else (putLast (s.emit (.mapResync n seq)) n serial (some (threeBefore seq))).emit (.mapGap n 0 seq)
    else if aheadBy last seq ≤ 3 then putLast s n serial (trackFor s.smu n serial).last
    else (putLast s n serial (some (threeBefore seq))).emit (.mapGap n last seq) := by
  rw [checkBeaconSeq, if_neg h]
  simp only [putLast, ← trackFor_eq, trackFor_n, trackFor_serial]
  rfl

/-- Outside CONFIG the sequence of a BEACON is checked against the last one applied (R44). -/
theorem checkBeaconSeq_checked (h : s.rlc.nodeState ≠ .config) : ∃ kept,
    TrackPut s { n := n, serial := serial, last := kept } (checkBeaconSeq s n serial seq)
      ∧ SeqChecked s n seq (lastApplied s.smu n serial) kept (checkBeaconSeq s n serial seq) := by
  have raised (v : State) (e : Event) (hv : Logs s.cpt v.cpt) : Raised s (v.emit e) e := ⟨v, hv, .refl _⟩
  have resync := raised s (.mapResync n seq) (.refl _)
  rw [checkBeaconSeq_eq h]
  dsimp only
  split_ifs with behind low near
  · exact ⟨none, (putTrack_put _ _).of_smu rfl rfl, fun _ => resync, fun _ _ => rfl, fun _ _ => by omega,
      fun hb => by simp [behind] at hb, fun hb => by simp [behind] at hb⟩
  · exact ⟨some (threeBefore seq), (putTrack_put _ _).of_smu rfl rfl, fun _ => resync.after (offerEvent_logs _ _ _),
      fun _ _ => by omega, fun _ _ => ⟨rfl, raised _ _ (offerEvent_logs _ _ _)⟩, fun hb => by simp [behind] at hb,
      fun hb => by simp [behind] at hb⟩
  · exact ⟨(trackFor s.smu n serial).last, putTrack_put _ _, fun hb => absurd hb behind, fun hb => absurd hb behind,
      fun hb => absurd hb behind, fun _ _ => rfl, fun _ _ => by omega⟩
  · exact ⟨some (threeBefore seq), (putTrack_put _ _).of_smu rfl rfl, fun hb => absurd hb behind,
      fun hb => absurd hb behind, fun hb => absurd hb behind, fun _ _ => by omega, fun _ _ => ⟨rfl, raised _ _ (.refl _)⟩⟩

end

end Sys2Proof.Machine
end

section
/-! A BEACON: the record it states (R31, R33, R34, R37, R41), and its sequence checked behind it (R42, R44). -/

namespace Sys2Proof.Machine

/-! ## Versions offered (R41) -/

section
variable {α : Type} {b c : Nat}

theorem perBay_get_set_same (q : PerBay α) (v : α) : (q.set b v).get b = v := by
  rcases perBay_get_set q b b v with ⟨h, -⟩ | ⟨-, h⟩
  · exact h
  · exact absurd rfl h

theorem perBay_get_set_other (q : PerBay α) (v : α) (hb : 1 ≤ b ∧ b ≤ 4) (hc : 1 ≤ c ∧ c ≤ 4) (h : b ≠ c) :
    (q.set b v).get c = q.get c := by
  have apart : (⟨1, 2, 3, 4⟩ : PerBay Nat).get b ≠ (⟨1, 2, 3, 4⟩ : PerBay Nat).get c := by
    have reads (k : Nat) (hk : 1 ≤ k ∧ k ≤ 4) : (⟨1, 2, 3, 4⟩ : PerBay Nat).get k = k := by
      obtain ⟨k1, k4⟩ := hk
      interval_cases k <;> rfl
    rwa [reads b hb, reads c hc]
  exact perBay_get_set_ne _ _ apart

end

/-- The versions of a record once the entries of a BEACON have been offered: each keeps the highest one (R41). -/
structure VersionsOffered (img : Option Image) (es : List ClaimEntry) (old new : PerBay Nat) : Prop where
  keeps : ∀ bay, old.get bay ≤ new.get bay
  takes : ∀ e ∈ es, ∀ g v bay, img = some g → e.version = some v → targetBay g e.target = some bay → 1 ≤ bay → bay ≤ 4 →
    v ≤ new.get bay
  source : ∀ bay, 1 ≤ bay → bay ≤ 4 → new.get bay = old.get bay ∨ ∃ e ∈ es, ∃ g, img = some g
    ∧ e.version = some (new.get bay) ∧ targetBay g e.target = some bay

section
variable {img : Option Image} {p : Peer} {bay v : Nat} {e : ClaimEntry} {es : List ClaimEntry} {old mid new : PerBay Nat}

theorem VersionsOffered.nil : VersionsOffered img [] old old :=
  ⟨fun _ => le_rfl, fun _ h => (List.not_mem_nil h).elim, fun _ _ _ => .inl rfl⟩

theorem VersionsOffered.cons (h : VersionsOffered img [e] old mid) (k : VersionsOffered img es mid new) :
    VersionsOffered img (e :: es) old new where
  keeps bay := (h.keeps bay).trans (k.keeps bay)
  takes d hd g v bay hg hv hb b1 b4 := by
    rcases List.mem_cons.mp hd with rfl | hd
    · exact (h.takes d (List.mem_singleton_self d) g v bay hg hv hb b1 b4).trans (k.keeps bay)
    · exact k.takes d hd g v bay hg hv hb b1 b4
  source bay b1 b4 := by
    rcases k.source bay b1 b4 with same | ⟨d, hd, found⟩
    · rw [same]
      refine (h.source bay b1 b4).imp_right fun ⟨d, hd, found⟩ => ⟨d, ?_, found⟩
      rw [List.mem_singleton.mp hd]
      exact List.mem_cons_self
    · exact .inr ⟨d, List.mem_cons_of_mem _ hd, found⟩

theorem offered_versions (hb : 1 ≤ bay ∧ bay ≤ 4) :
    (p.offered bay v).versions = p.versions.set bay (max (p.versions.get bay) v) := by
  rw [Peer.offered, if_pos hb]

theorem offered_keeps (p : Peer) (bay v c : Nat) : p.versions.get c ≤ (p.offered bay v).versions.get c := by
  unfold Peer.offered
  split
  · dsimp only
    rcases perBay_get_set p.versions bay c (max (p.versions.get bay) v) with ⟨set, same⟩ | ⟨kept, -⟩
    · have read : p.versions.get bay = p.versions.get c := same.elim (fun e => e ▸ rfl) id
      rw [set, read]
      exact le_max_left _ _
    · exact kept.ge
  · exact le_rfl

/-- One entry on the zone of a bay offers its version (R41, R94). -/
theorem offered_offers {g : Image} (hv : e.version = some v) (hb : targetBay g e.target = some bay) :
    VersionsOffered (some g) [e] p.versions (p.offered bay v).versions where
  keeps := offered_keeps p bay v
  takes d hd g' v' bay' hg hv' hb' b1 b4 := by
    obtain rfl := List.mem_singleton.mp hd
    obtain rfl := Option.some.inj hg
    obtain rfl := Option.some.inj (hv.symm.trans hv')
    obtain rfl := Option.some.inj (hb.symm.trans hb')
    rw [offered_versions ⟨b1, b4⟩, perBay_get_set_same]
    exact le_max_right _ _
  source c c1 c4 := by
    by_cases inside : 1 ≤ bay ∧ bay ≤ 4
    · rw [offered_versions inside]
      by_cases here : bay = c
      · subst here
        rw [perBay_get_set_same]
        rcases max_choice (p.versions.get bay) v with h | h
        · exact .inl h
        · exact .inr ⟨e, List.mem_singleton_self e, g, rfl, by rw [h, hv], hb⟩
      · exact .inl (perBay_get_set_other _ _ inside ⟨c1, c4⟩ here)
    · rw [Peer.offered, if_neg inside]
      exact .inl rfl

/-- An entry without a version, or on the zone of no bay, offers nothing. -/
theorem nothing_offered {g : Image} (h : ∀ v bay, e.version = some v → targetBay g e.target ≠ some bay) :
    VersionsOffered (some g) [e] old old where
  keeps _ := le_rfl
  takes d hd g' v bay hg hv hb _ _ := by
    obtain rfl := List.mem_singleton.mp hd
    obtain rfl := Option.some.inj hg
    exact absurd hb (h v bay hv)
  source _ _ _ := .inl rfl

theorem offerEntries_offers (p : Peer) (img : Option Image) (es : List ClaimEntry) :
    VersionsOffered img es p.versions (offerEntries p img es).versions := by
  unfold offerEntries
  cases img with
  | none => exact ⟨fun _ => le_rfl, fun _ _ _ _ _ hg => by (cases hg), fun _ _ _ => .inl rfl⟩
  | some g =>
    dsimp only
    induction es generalizing p with
    | nil => exact .nil
    | cons e es ih =>
      rw [List.foldl_cons]
      refine .cons ?_ (ih _)
      split
      · exact offered_offers ‹_› ‹_›
      · rename_i absent
        exact nothing_offered fun v bay hv hb => absent v bay hv hb

end

/-! ## The record stated (R34, R37) -/

/-- A record as a BEACON states it, with versions of its own. -/
theorem stated_eq (p : Peer) (img : Option Image) (now : Nat) (b : Beacon) : p.stated img now b = { p with
    nodeState := some b.state, loadClass := some b.loadClass, noticeSeq := some b.noticeSeq, valid := b.valid,
    x := placedX img b.x, vx := clamp (-4000) 4000 b.vx, age := b.age, arrival := now, claims := copyOf now b.claims,
    outOfField := decide (placedX img b.x ≠ b.x ∨ clamp (-4000) 4000 b.vx ≠ b.vx),
    versions := (p.stated img now b).versions } := by
  unfold Peer.stated
  dsimp only
  conv_lhs => rw [offerEntries_frame]
  rfl

theorem stated_versions (p : Peer) (img : Option Image) (now : Nat) (b : Beacon) :
    VersionsOffered img b.claims p.versions (p.stated img now b).versions :=
  offerEntries_offers { p.placed img now b.x b.vx b.age b.valid with
    nodeState := some b.state, loadClass := some b.loadClass, noticeSeq := some b.noticeSeq,
    claims := copyOf now b.claims } img b.claims

/-- A record `p` after a BEACON: what it keeps, and what the BEACON states of it (R34, R37, R41). -/
structure StatedBy (img : Option Image) (now : Nat) (b : Beacon) (p q : Peer) : Prop where
  kept : q = { p with
    nodeState := q.nodeState, loadClass := q.loadClass, noticeSeq := q.noticeSeq, valid := q.valid, x := q.x, vx := q.vx,
    age := q.age, arrival := q.arrival, claims := q.claims, outOfField := q.outOfField, versions := q.versions }
  plain : q.nodeState = some b.state ∧ q.loadClass = some b.loadClass ∧ q.noticeSeq = some b.noticeSeq
    ∧ q.valid = b.valid ∧ q.age = b.age ∧ q.arrival = now ∧ q.claims = copyOf now b.claims
  x : q.x = placedX img b.x
  vx : q.vx = max (-4000) (min 4000 b.vx)
  mark : q.outOfField = decide (q.x ≠ b.x ∨ q.vx ≠ b.vx)
  versions : VersionsOffered img b.claims p.versions q.versions

theorem stated_by (p : Peer) (img : Option Image) (now : Nat) (b : Beacon) : StatedBy img now b p (p.stated img now b) := by
  have eq := stated_eq p img now b
  have versions := stated_versions p img now b
  have vx : clamp (-4000) 4000 b.vx = max (-4000) (min 4000 b.vx) := clamp_eq (by decide)
  rw [vx] at eq
  generalize p.stated img now b = q at eq versions ⊢
  refine ⟨?_, ?_, congrArg Peer.x eq, congrArg Peer.vx eq, ?_, versions⟩ <;> rw [eq]
  exact ⟨rfl, rfl, rfl, rfl, rfl, rfl, rfl⟩

/-- The x that a BEACON gives a record, with the runway of a validated image (R37). -/
theorem placedX_eq (img : Option Image) (x : Int) : (∀ g, img = some g → 0 ≤ g.runway) → placedX img x =
    match img with
    | none => x
    | some g => max 0 (min g.runway x) := by
  intro field
  cases img with
  | none => rfl
  | some g => exact clamp_eq (field g rfl)

/-! ## The sequence checked behind the record (R42, R44) -/

/-- Between a BEACON's receipt and the end of its command: nothing differs but the peer table, the tracking of its sender,
and what the hand-ons leave open. -/
structure SequenceTested (s : State) (n serial seq : Nat) (t : State) : Prop where
  frame : HandOnFrame { s with ptb := t.ptb, smu := t.smu } t
  config : s.rlc.nodeState = .config → t.smu = s.smu
  tracked : s.rlc.nodeState ≠ .config → ∃ kept, TrackPut s { n := n, serial := serial, last := kept } t
    ∧ SeqChecked s n seq (lastApplied s.smu n serial) kept t

section
variable {s x t v : State} {n serial : Nat} {b : Beacon} {p : Peer}

theorem checkBeaconSeq_tested {seq : Nat} (h : HandOnFrame { s with ptb := x.ptb } x) (logs : Logs s.cpt x.cpt)
    (k : Moves false (checkBeaconSeq x n serial seq) t) : t.ptb = x.ptb ∧ SequenceTested s n serial seq t := by
  have smu : x.smu = s.smu := h.smu
  have node : x.rlc.nodeState = s.rlc.nodeState := by rw [h.rlc]
  have checked := (checkBeaconSeq_apart x n serial seq).1
  have ptb : t.ptb = x.ptb := k.ptb.trans checked.ptb
  have put : t.smu = (checkBeaconSeq x n serial seq).smu := k.frame.smu
  refine ⟨ptb, ?_, fun config => ?_, fun outside => ?_⟩
  · rw [ptb, put]
    exact (h.with_smu _).trans (checked.trans k.frame)
  · rw [put, checkBeaconSeq_of_config (node.trans config), smu]
  · obtain ⟨kept, track, seqs⟩ := checkBeaconSeq_checked (n := n) (serial := serial) (seq := seq) (node ▸ outside)
    rw [smu] at seqs
    exact ⟨kept, track.of_smu smu put, seqs.within logs k.logs⟩

/-- A BEACON's record put into the table behind its reports, and its sequence checked. -/
theorem beacon_ends {q : Peer} (before : Moves false s v) (hq : q.n = n)
    (k : Moves false (checkBeaconSeq (putPeer v q) n serial b.noticeSeq) t) :
    peerAt t.ptb n = some q ∧ (∀ m, m ≠ n → peerAt t.ptb m = peerAt s.ptb m)
      ∧ SequenceTested s n serial b.noticeSeq t ∧ Logs v.cpt t.cpt := by
  subst hq
  have put : Moves false (putPeer v q) (putPeer v q) := .refl _
  obtain ⟨ptb, tested⟩ := checkBeaconSeq_tested (s := s) (before.frame.put put) before.logs k
  obtain ⟨found, others⟩ := putPeer_lookup before.ptb put
  exact ⟨by rw [ptb, found], fun m hm => by rw [ptb, others m hm], tested,
    (checkBeaconSeq_apart (putPeer v q) q.n serial b.noticeSeq).2.logs.trans k.logs⟩

theorem takeBeacon_known (hk : knownPeer s n serial = some p) :
    takeBeacon s n serial b = recordChanged (beaconTaken s p n serial b) := by
  simp only [takeBeacon, hk, beaconTaken]

theorem takeBeacon_started {e : Event} (unknown : knownPeer s n serial = none)
    (hs : startRecord s n serial = (s.emit e, some p)) :
    takeBeacon s n serial b = recordChanged (checkBeaconSeq (putPeer
      (reportField (s.emit e) p (p.stated s.cpt.image s.now b)) (p.stated s.cpt.image s.now b)) n serial b.noticeSeq) := by
  simp only [takeBeacon, unknown, hs, emit_image, emit_now]

theorem takeBeacon_full (unknown : knownPeer s n serial = none) (hs : startRecord s n serial = (v, none)) :
    takeBeacon s n serial b = checkBeaconSeq v n serial b.noticeSeq := by
  simp only [takeBeacon, unknown, hs]

theorem tellFull_logs (s : State) : Logs s.cpt (tellFull s).cpt := by
  unfold tellFull
  split
  · exact .refl _
  · exact offerEvent_logs _ _ _

theorem execRxBeacon_of (h : Routed s n serial (.beacon b)) :
    exec (.rxBeacon n serial b) s = .next (State.finish (takeBeacon s n serial b)) := by
  change execRxBeacon n serial b s = _
  rw [execRxBeacon, receive_routed h]

end

/-- Settles O25: the record stated by what the table holds of the number, and the sequence checked behind it. -/
theorem beaconUpdatesItsRecord : Obligations.BeaconUpdatesItsRecord := by
  intro s n serial b h field k last ahead behind three checked rest stated
  have rest_of {u : State} (others : ∀ m, m ≠ n → peerAt u.ptb m = peerAt s.ptb m)
      (tested : SequenceTested s n serial k u) : rest u := by
    have is_behind : isBehind last k = true ↔ behind := isBehind_iff
    have ahead_of (hb : ¬ behind) : isBehind last k = false := Bool.eq_false_iff.mpr (mt is_behind.mp hb)
    refine ⟨others, ⟨tested.config, fun outside => ?_⟩, tested.frame⟩
    obtain ⟨kept, track, seqs⟩ := tested.tracked outside
    rw [lastApplied_eq] at seqs
    refine ⟨track.slots, track.others, _, track.own, rfl, fun hb => (seqs.resync (is_behind.mpr hb)).reports,
      fun hb => seqs.none (is_behind.mpr hb), fun hb hk => ?_, fun hb => seqs.near (ahead_of hb), fun hb ha => ?_⟩
    · obtain ⟨set, raised⟩ := seqs.again (is_behind.mpr hb) hk
      exact ⟨set, raised.reports⟩
    · obtain ⟨set, raised⟩ := seqs.gap (ahead_of hb) ha
      exact ⟨set, raised.reports⟩
  have stated_of {p : Peer} (hn : p.n = n) (hs : p.serial = serial) (heard : p.heard = s.now) (live : p.liveness = .live)
      {v : State} (before : Moves false s v) (taken : takeBeacon s n serial b = recordChanged
        (checkBeaconSeq (putPeer v (p.stated s.cpt.image s.now b)) n serial k)) :
      ∃ u q, exec (.rxBeacon n serial b) s = .next u ∧ stated u q p.pattern p.profile p.versions p.cleared
        ∧ Logs v.cpt u.cpt := by
    have record := stated_by p s.cpt.image s.now b
    obtain ⟨found, others, tested, logs⟩ := beacon_ends before ((stated_n _ _ _ _).trans hn)
      ((recordChanged_moves (.refl _)).trans (finish_moves _))
    rw [← taken] at found others tested logs
    generalize p.stated s.cpt.image s.now b = q at *
    obtain ⟨kept, ⟨node, load, seq, valid, age, arrival, claims⟩, x, vx, mark, keeps, takes, source⟩ := record
    exact ⟨_, q, execRxBeacon_of h, ⟨found, (congrArg Peer.serial kept).trans hs, (congrArg Peer.pattern kept :),
      (congrArg Peer.profile kept :), (congrArg Peer.cleared kept :), node, valid, age, arrival,
      (congrArg Peer.heard kept).trans heard, (congrArg Peer.liveness kept).trans live, load, seq, vx,
      x.trans (placedX_eq _ b.x field), mark, claims, keeps, fun e he img v bay hi => takes e he img v bay hi, source,
      rest_of others tested⟩, logs⟩
  have started {p : Peer} {e : Event} (unknown : knownPeer s n serial = none)
      (hs : startRecord s n serial = (s.emit e, some p)) (hn : p.n = n) (hserial : p.serial = serial)
      (heard : p.heard = s.now) (live : p.liveness = .live) :
      ∃ u q, exec (.rxBeacon n serial b) s = .next u ∧ stated u q p.pattern p.profile p.versions p.cleared
        ∧ Reports s u e := by
    obtain ⟨u, q, run, holds, logs⟩ := stated_of hn hserial heard live
      (reportField_moves ((Moves.refl s).emit e) p (p.stated s.cpt.image s.now b)) (takeBeacon_started unknown hs)
    exact ⟨u, q, run, holds, .of_emit (.refl _)
      ((reportField_moves (cmd := false) (.refl (s.emit e)) p (p.stated s.cpt.image s.now b)).logs.trans logs)⟩
  refine ⟨fun p hat hs => ?_, fun p hat hs => ?_, fun hat room => ?_, fun hat full => ?_⟩
  · obtain ⟨u, q, run, holds, -⟩ := stated_of (p := p.revived s.now) (mem_of_peerAt hat).2 hs rfl rfl
      (reportField_moves (reportBack_moves (.refl s) p) p _) (takeBeacon_known (knownPeer_eq_some.mpr ⟨hat, hs⟩))
    exact ⟨u, q, run, holds⟩
  · exact started (knownPeer_of_other hat hs) (startRecord_of_other hat) rfl rfl rfl rfl
  · exact started (knownPeer_of_none hat) (startRecord_of_room hat room) rfl rfl rfl rfl
  · obtain ⟨full_ptb, full_frame, full_told⟩ := tellFull_spec s
    obtain ⟨ptb, tested⟩ := checkBeaconSeq_tested (n := n) (serial := serial) (seq := k) full_frame (tellFull_logs s)
      (finish_moves _)
    rw [execRxBeacon_of h, takeBeacon_full (knownPeer_of_none hat) (startRecord_of_full hat full)]
    exact ⟨_, rfl, ptb.trans full_ptb, rest_of (fun m _ => by rw [ptb, full_ptb]; rfl) tested, fun hf => (full_told hf).of_logs
      ((checkBeaconSeq_apart _ n serial k).2.logs.trans (finish_moves _).logs) (tellFull_logs s)⟩

end Sys2Proof.Machine
end

section
/-! A NOTICE: tracked by its sequence, and applied to the record of its slot (R43, R109, R110). -/

namespace Sys2Proof.Machine

/-! ## The record after a notice (R109, R110) -/

/-- A pick or a place that the own record contradicts disputes it (R110). -/
theorem noticed_disputed (r : SlotRec) (n : Nat) (c : Coil) :
    ((noticed r n .place c).disputed = true ↔ r.disputed = true ∨ r.content = .occupied)
      ∧ ((noticed r n .pick c).disputed = true ↔ r.disputed = true ∨ r.content = .empty
        ∨ r.content = .occupied ∧ ∃ a b, r.coil.id = some a ∧ c.id = some b ∧ a ≠ b) := by
  have placed : disagrees r .place c = true ↔ r.content = .occupied := by
    unfold disagrees
    cases r.content <;> simp
  have picked : disagrees r .pick c = true ↔ r.content = .empty
      ∨ r.content = .occupied ∧ ∃ a b, r.coil.id = some a ∧ c.id = some b ∧ a ≠ b := by
    unfold disagrees
    cases r.content with
    | unknown => simp
    | empty => simp
    | occupied => cases r.coil.id <;> cases c.id <;> simp
  exact ⟨by rw [← placed, noticed, Bool.or_eq_true], by rw [← picked, noticed, Bool.or_eq_true]⟩

theorem noticed_of_changes {k : NoticeKind} (hs : k ≠ .setBlock) (hc : k ≠ .clearBlock) (r : SlotRec) (n : Nat) (c : Coil) :
    (noticed r n k c).blocked = r.blocked ∧ (noticed r n k c).source = some (.peer n) := by
  cases k with
  | setBlock => exact absurd rfl hs
  | clearBlock => exact absurd rfl hc
  | pick | place | foundEmpty | foundOccupied => exact ⟨rfl, rfl⟩

section
variable {s t v : State} {n serial : Nat} {k : Notice} {img : Image} {r : SlotRec}

/-! ## The notice applied -/

theorem applyNotice_unmapped (h : s.cpt.image = none ∨ slotRec s.smu k.slot = none) :
    applyNotice s n k = s.emit (.noticeNoSlot n k.slot) := by
  unfold applyNotice
  split
  · rfl
  · rw [h.resolve_left (by simp [*])]

/-- The source that a slot change of a notice reports. -/
def noticeReport (n : Nat) (k : NoticeKind) : ChangeReport := if isBlockKind k then .block else .source (.peer n)

/-- A slot changed behind moves of the blocks. -/
theorem SlotChanged.behind {id : Nat} (h : SlotChanged v id r t) (before : Moves false s v) : SlotChanged s id r t where
  frame := (before.frame.with_smu _).trans h.frame
  tracking := before.frame.smu ▸ h.tracking
  changed := h.changed
  others := before.frame.smu ▸ h.others

/-- A notice for a slot of the map changes its record (R109 to R111). -/
theorem applyNotice_changed (image : s.cpt.image = some img) (record : slotRec s.smu k.slot = some r) :
    SlotChanged s k.slot (noticed r n k.kind (keepCoil img k.coil)) (applyNotice s n k) := by
  let kept := if keepCoil img k.coil = k.coil then s else s.emit (.noticeFieldBad n k.slot)
  let told := if disagrees r k.kind (keepCoil img k.coil) then kept.emit (.slotDisputed k.slot n) else kept
  have kept_moves : Moves false s kept := .ite (.refl s) ((Moves.refl s).emit _)
  have told_moves : Moves false s told := .ite (kept_moves.emit _) kept_moves
  have applied : applyNotice s n k = changeSlot told img k.slot (noticed r n k.kind (keepCoil img k.coil))
      (noticeReport n k.kind) := by
    simp only [applyNotice, image, record]
    rfl
  rw [applied]
  exact (changeSlot_changed img _ (told_moves.frame.smu ▸ record)).behind told_moves

/-! ## The notice tracked (R43) -/

/-- A notice without a sequence, repeated or behind is not applied (R43). -/
def notAhead (s : State) (n serial : Nat) (k : Notice) : Prop :=
  k.seq = 0 ∨ k.seq = lastApplied s.smu n serial ∨ isBehind (lastApplied s.smu n serial) k.seq = true

theorem takeNotice_old (h : notAhead s n serial k) :
    takeNotice s n serial k = putLast s n serial (trackFor s.smu n serial).last := by
  rw [putLast, ← trackFor_eq]
  exact if_pos h

theorem takeNotice_ahead (h : ¬ notAhead s n serial k) :
    ∃ v, Moves false (putLast s n serial (some k.seq)) v ∧ takeNotice s n serial k = applyNotice v n k := by
  refine ⟨if aheadBy (lastApplied s.smu n serial) k.seq = 1 then putLast s n serial (some k.seq)
    else (putLast s n serial (some k.seq)).emit (.mapGap n (lastApplied s.smu n serial) k.seq),
    .ite (.refl _) ((Moves.refl _).emit _), ?_⟩
  unfold takeNotice
  refine (if_neg h).trans ?_
  simp only [trackFor_n, trackFor_serial]
  rfl

/-- A notice not ahead changes no slot, and leaves the last sequence applied (R43). -/
theorem takeNotice_old_spec (h : notAhead s n serial k) (after : Moves false (takeNotice s n serial k) t) :
    HandOnFrame { s with smu := t.smu } t
      ∧ TrackPut s { n := n, serial := serial, last := (trackFor s.smu n serial).last } t := by
  rw [takeNotice_old h] at after
  have smu := after.frame.smu
  exact ⟨smu ▸ after.frame, (putTrack_put s _).of_smu rfl smu⟩

/-- A notice ahead becomes the last one applied (R43), and is applied where its slot is in the map. -/
theorem takeNotice_ahead_spec (h : ¬ notAhead s n serial k) (after : Moves false (takeNotice s n serial k) t) :
    HandOnFrame { s with smu := t.smu } t
      ∧ (∀ m, m ≠ n → trackAt t.smu m = trackAt s.smu m)
      ∧ trackAt t.smu n = some { n := n, serial := serial, last := some k.seq }
      ∧ (s.cpt.image = none ∨ slotRec s.smu k.slot = none → t.smu.slots = s.smu.slots)
      ∧ ∀ img r, s.cpt.image = some img → slotRec s.smu k.slot = some r →
          slotRec t.smu k.slot = some (noticed r n k.kind (keepCoil img k.coil))
            ∧ ∀ id, id ≠ k.slot → slotRec t.smu id = slotRec s.smu id := by
  obtain ⟨v, tracked, taken⟩ := takeNotice_ahead h
  have put := putTrack_put s { n := n, serial := serial, last := some k.seq }
  have smu : v.smu = (putLast s n serial (some k.seq)).smu := tracked.frame.smu
  have image : v.cpt.image = s.cpt.image := tracked.image
  have record (id : Nat) : slotRec v.smu id = slotRec s.smu id := by
    rw [smu]
    rfl
  rw [taken] at after
  have track (m : Nat) (same : t.smu.tracking = v.smu.tracking) :
      trackAt t.smu m = trackAt (putLast s n serial (some k.seq)).smu m := by
    rw [trackAt, same, smu]
    rfl
  have tracks (same : t.smu.tracking = v.smu.tracking) : (∀ m, m ≠ n → trackAt t.smu m = trackAt s.smu m)
      ∧ trackAt t.smu n = some { n := n, serial := serial, last := some k.seq } :=
    ⟨fun m hm => (track m same).trans (put.others m hm), (track n same).trans put.own⟩
  by_cases unmapped : s.cpt.image = none ∨ slotRec s.smu k.slot = none
  · rw [applyNotice_unmapped (by rwa [image, record])] at after
    have all := tracked.trans (((Moves.refl v).emit _).trans after)
    have same := all.frame.smu
    obtain ⟨others, own⟩ := tracks (by rw [same, smu])
    refine ⟨same ▸ all.frame, others, own, fun _ => by rw [same]; rfl, fun img r hi hr => ?_⟩
    rcases unmapped with h | h
    · rw [hi] at h
      cases h
    · rw [hr] at h
      cases h
  · obtain ⟨img, hi⟩ := Option.ne_none_iff_exists'.mp fun e => unmapped (.inl e)
    obtain ⟨r, hr⟩ := Option.ne_none_iff_exists'.mp fun e => unmapped (.inr e)
    have changed := (applyNotice_changed (n := n) (image.trans hi) ((record _).trans hr)).behind tracked
    have same := after.frame.smu
    obtain ⟨others, own⟩ := tracks (by rw [same, changed.tracking, smu])
    refine ⟨same ▸ changed.frame.trans after.frame, others, own, fun h => absurd h unmapped, fun img' r' hi' hr' => ?_⟩
    obtain rfl := Option.some.inj (hi.symm.trans hi')
    obtain rfl := Option.some.inj (hr.symm.trans hr')
    rw [same]
    exact ⟨changed.changed, changed.others⟩

theorem execRxNotice_of (h : Routed s n serial (.notice k)) (outside : s.rlc.nodeState ≠ .config) :
    exec (.rxNotice n serial k) s = .next (State.finish (takeNotice (hearKnown s n serial) n serial k)) := by
  have node : (hearKnown s n serial).rlc.nodeState = s.rlc.nodeState := by
    rw [(hearKnown_frame (s := s) (n := n) (serial := serial)).rlc]
  change execRxNotice n serial k s = _
  rw [execRxNotice, receive_routed h]
  exact congrArg (fun t => Host.Outcome.next (State.finish t)) (if_neg (node ▸ outside))

end

/-- Settles O29: the notice tracked, and applied where it is ahead and its slot is in the map. -/
theorem noticeIsAppliedWhenAhead : Obligations.NoticeIsAppliedWhenAhead := by
  intro s n serial k h outside last ahead
  have heard := hearKnown_frame (s := s) (n := n) (serial := serial)
  have run := execRxNotice_of h outside
  generalize hearKnown s n serial = x at heard run
  have smu : x.smu = s.smu := heard.smu
  have image : x.cpt.image = s.cpt.image := by rw [heard.cpt]
  have last_eq : lastApplied x.smu n serial = last := smu ▸ lastApplied_eq x.smu n serial
  have old_iff : notAhead x n serial k ↔ k.seq = 0 ∨ k.seq = last ∨ 32768 ≤ ahead := by
    have seq0 : ahead = aheadBy last k.seq := rfl
    rw [notAhead, last_eq, isBehind_iff, ← seq0]
    tauto
  have frame {u : State} (f : HandOnFrame { x with smu := u.smu } u) : HandOnFrame { s with ptb := u.ptb, smu := u.smu } u := by
    have ptb : u.ptb = x.ptb := f.ptb
    rw [ptb]
    exact (heard.with_smu _).trans f
  refine ⟨_, run, ?_⟩
  by_cases old : notAhead x n serial k
  · obtain ⟨f, put⟩ := takeNotice_old_spec old (finish_moves _)
    rw [← smu]
    exact ⟨frame f, put.others, fun _ => ⟨put.slots, _, put.own, rfl, last_eq⟩,
      fun h1 h2 h3 => absurd (old_iff.mp old) (by omega)⟩
  · obtain ⟨f, others, own, unmapped, mapped⟩ := takeNotice_ahead_spec old (finish_moves _)
    rw [smu, image] at unmapped mapped
    rw [smu] at others
    refine ⟨frame f, others, fun h => absurd (old_iff.mpr h) old, fun _ _ _ => ⟨own, unmapped, fun img r hi hr => ?_⟩⟩
    obtain ⟨changed, same⟩ := mapped img r hi hr
    generalize k.kind = kind at changed ⊢
    refine ⟨same, _, changed, ?_, ?_, fun hs hc => noticed_of_changes hs hc r n _, ?_, ?_, ?_, ?_⟩ <;> rintro rfl
    · rfl
    · rfl
    · exact ⟨rfl, rfl, rfl⟩
    · exact ⟨rfl, rfl, rfl⟩
    · exact ⟨rfl, rfl, (noticed_disputed r n _).1⟩
    · exact ⟨rfl, rfl, (noticed_disputed r n _).2⟩

end Sys2Proof.Machine
end

section
/-! SUPPORT. The required versions (R155): the claim unit leaves the truck records alone, and the hand-ons raise a required
version by the version check alone, so never above the highest version seen. -/

namespace Sys2Proof.Machine

/-! ## The claim unit and the truck records -/

section
variable {s : State}

theorem foldl_tbu {α : Type} {f : State → α → State} (hf : ∀ s a, (f s a).tbu = s.tbu) (l : List α) (s : State) :
    (l.foldl f s).tbu = s.tbu := by
  induction l generalizing s with
  | nil => rfl
  | cons a l ih => rw [List.foldl_cons, ih, hf]

@[simp] theorem claimChanged_tbu (s : State) (t : Target) (st : ClaimState) (left : Bool) (hs : List Holder) :
    (claimChanged s t st left hs).tbu = s.tbu := by
  rw [claimChanged, handChange_eq, emit_tbu, compute_tbu]

@[simp] theorem endConflict_tbu (s : State) (z : Nat) : (endConflict s z).tbu = s.tbu := by
  unfold endConflict
  split <;> simp

@[simp] theorem startConflict_tbu (s : State) (z : Nat) : (startConflict s z).tbu = s.tbu := by
  unfold startConflict
  split <;> simp

@[simp] theorem leaveHeld_tbu (s : State) (t : Target) : (leaveHeld s t).tbu = s.tbu := by
  unfold leaveHeld
  cases ownBay s t <;> cases t <;> simp

@[simp] theorem yieldClaim_tbu (s : State) (c : OwnClaim) : (yieldClaim s c).tbu = s.tbu := by
  unfold yieldClaim
  dsimp only
  split <;> simp

@[simp] theorem reaskClaim_tbu (s : State) (c : OwnClaim) : (reaskClaim s c).tbu = s.tbu := by
  simp [reaskClaim]

theorem settleZone_tbu (s : State) (img : Image) (c : OwnClaim) (z : Nat) : (settleZone s img c z).tbu = s.tbu := by
  unfold settleZone
  split
  · rfl
  · dsimp only
    split_ifs <;> simp

theorem settleSlot_tbu (s : State) (c : OwnClaim) (k : Nat) : (settleSlot s c k).tbu = s.tbu := by
  unfold settleSlot
  dsimp only
  split_ifs
  · rfl
  · rw [yieldClaim_tbu]
    rfl
  · exact foldl_tbu (fun t n => emit_tbu t (.slotDoubleHold k n)) _ _

@[simp] theorem settleDouble_tbu (s : State) (c : OwnClaim) : (settleDouble s c).tbu = s.tbu := by
  unfold settleDouble
  split
  · rfl
  · cases c.target with
    | zone z => exact settleZone_tbu _ _ _ _
    | slot k => exact settleSlot_tbu _ _ _
    | other => rfl

@[simp] theorem retestClaim_tbu (s : State) (t : Target) : (retestClaim s t).tbu = s.tbu := by
  unfold retestClaim
  split
  · rfl
  · split
    · split <;> simp
    · split <;> simp
    · exact settleDouble_tbu _ _

@[simp] theorem retestClaims_tbu (s : State) : (retestClaims s).tbu = s.tbu := by
  unfold retestClaims
  split
  · exact foldl_tbu retestClaim_tbu _ _
  · rfl

@[simp] theorem resettleSlots_tbu (s : State) : (resettleSlots s).tbu = s.tbu := by
  unfold resettleSlots
  split
  · refine foldl_tbu (fun t c => ?_) _ _
    split
    · split <;> simp
    · rfl
  · rfl

theorem raisePrio_tbu (s : State) (c : OwnClaim) (prio : Nat) : (raisePrio s c prio).tbu = s.tbu := by
  unfold raisePrio
  cases c.state <;> simp

@[simp] theorem ask_tbu (s : State) (t : Target) (prio : Nat) (k : Holder) : (ask s t prio k).1.tbu = s.tbu := by
  unfold ask
  split
  · rfl
  split
  · rfl
  split
  · split
    · rfl
    · dsimp only
      split
      · exact raisePrio_tbu _ _ _
      · rfl
  · split
    · rfl
    · unfold newClaim
      split <;> simp [addClaim]

theorem removeClaim_tbu (s : State) (c : OwnClaim) : (removeClaim s c).tbu = s.tbu := by
  unfold removeClaim
  dsimp only
  split_ifs <;> simp [dropClaim]

@[simp] theorem releaseClaim_tbu (s : State) (t : Target) (k : Holder) : (releaseClaim s t k).tbu = s.tbu := by
  unfold releaseClaim
  split
  · rfl
  split
  · rfl
  · dsimp only
    split
    · exact removeClaim_tbu _ _
    · unfold heldOn
      split <;> rfl

@[simp] theorem recordChanged_tbu (s : State) : (recordChanged s).tbu = s.tbu := by
  unfold recordChanged copiesChanged sourceAgain
  split
  · simp
  · split <;> simp

theorem closeSession_tbu (s : State) (id : Nat) : (closeSession s id).tbu = s.tbu := by
  unfold closeSession
  split
  · rfl
  · split
    · split <;> rfl
    · rfl

theorem markUntracked_tbu (s : State) (c : UntrackedCause) : (markUntracked s c).tbu = s.tbu := by
  unfold markUntracked
  split <;> rfl

end

/-! ## The version check -/

/-- The required version of a bay lies within a bound that covers the highest version its peer table holds. -/
def Within (p : Ptb) (bay bound : Nat) (s : State) : Prop :=
  s.ptb = p ∧ (1 ≤ bay ∧ bay ≤ 4 ∧ highestSeen p bay ≤ bound) ∧ s.tbu.required.get bay ≤ bound

section
variable {p : Ptb} {bay bound : Nat} {s u : State}

theorem Within.of_same (h : Within p bay bound u) (hp : s.ptb = u.ptb) (hr : s.tbu.required = u.tbu.required) :
    Within p bay bound s := by
  obtain ⟨same, seen, required⟩ := h
  exact ⟨hp.trans same, seen, hr ▸ required⟩

/-- A step of the hand-ons that leaves the truck records alone. -/
theorem Within.of_moves (h : Within p bay bound u) (m : Moves true u s) (ht : s.tbu = u.tbu) : Within p bay bound s :=
  h.of_same m.ptb (congrArg Tbu.required ht)

theorem Within.foldl {α : Type} {f : State → α → State} (hf : ∀ s a, Within p bay bound s → Within p bay bound (f s a))
    (l : List α) (h : Within p bay bound u) : Within p bay bound (l.foldl f u) := by
  induction l generalizing u with
  | nil => exact h
  | cons a l ih => exact ih (hf _ _ h)

theorem Within.compute (h : Within p bay bound u) : Within p bay bound u.compute :=
  h.of_moves (Moves.refl _).compute (compute_tbu u)

theorem Within.releaseClaim (h : Within p bay bound u) (t : Target) (k : Holder) :
    Within p bay bound (releaseClaim u t k) := h.of_moves (releaseClaim_moves (.refl u) t k) (releaseClaim_tbu u t k)

theorem Within.ask (h : Within p bay bound u) (t : Target) (prio : Nat) (k : Holder) :
    Within p bay bound (ask u t prio k).1 := h.of_moves (ask_moves (.refl u) t prio k) (ask_tbu u t prio k)

theorem staleMoved_within (h : Within p bay bound u) (was : Bool) (b : Nat) : Within p bay bound (staleMoved was u b) :=
  h.of_moves (staleMoved_moves (.refl u) was b) (staleMoved_tbu was u b)

/-- The version check raises no required version above the highest one seen (R155). -/
theorem versionCheck_within (h : Within p bay bound u) (b : Nat) : Within p bay bound (versionCheck u b) := by
  unfold versionCheck
  split
  · rename_i inside
    obtain ⟨rfl, ⟨low, high, seen⟩, required⟩ := h
    have raised : Within u.ptb bay bound (putRequired u b (highestSeen u.ptb b)) := by
      refine ⟨rfl, ⟨low, high, seen⟩, ?_⟩
      by_cases here : b = bay
      · subst here
        exact (perBay_get_set_same _ _).trans_le (max_le required seen)
      · exact (perBay_get_set_other _ _ inside ⟨low, high⟩ here).trans_le required
    exact staleMoved_within raised _ b
  · exact h

/-! ## Truck requests -/

theorem tellLimit_within (h : Within p bay bound u) (b : Nat) : Within p bay bound (tellLimit u b) := by
  unfold tellLimit
  split
  · exact h
  · exact h

theorem setTruck_within (h : Within p bay bound u) (b : Nat) (t : Truck) : Within p bay bound (setTruck u b t) := by
  have put : Within p bay bound (putTruck u b t) := h
  exact staleMoved_within put _ b

theorem ownChange_within (h : Within p bay bound u) (b : Nat) (c : TruckContent) :
    Within p bay bound (ownChange u b c) := by
  have windowed (v : State) : (v.openChangeWindow b).tbu = v.tbu := offer_tbu _ _
  have set := setTruck_within h b { version := nextVersion u b, content := c }
  exact set.of_moves ((Moves.refl _).changeWindow b) (windowed _)

theorem handBay_within (h : Within p bay bound u) (b : Nat) : Within p bay bound (handBay u b) := by
  unfold handBay
  split <;> exact h

theorem releaseBay_within (h : Within p bay bound u) (b : Nat) : Within p bay bound (releaseBay u b) := by
  unfold releaseBay
  split
  · exact h
  · exact h.releaseClaim _ _

theorem dropTruckReq_within (h : Within p bay bound u) (b : Nat) : Within p bay bound (dropTruckReq u b) :=
  h

theorem failTruckReq_within (h : Within p bay bound u) (b : Nat) (why : TruckFail) :
    Within p bay bound (failTruckReq u b why) := releaseBay_within (dropTruckReq_within h b) b

theorem applyTruckReq_within (h : Within p bay bound u) (img : Image) (zn : Zone) (b : Nat) (k : TruckReqKind) :
    Within p bay bound (applyTruckReq u img zn b k) := by
  unfold applyTruckReq
  split
  · exact failTruckReq_within h _ _
  · split
    · exact failTruckReq_within (tellLimit_within h _) _ _
    · rename_i c _ _
      have released := releaseBay_within (dropTruckReq_within (ownChange_within h b c) b) b
      have told : Within p bay bound (tellUpdated (releaseBay (dropTruckReq (ownChange u b c) b) b) b .own) := released
      exact handBay_within told b

theorem pursueTruckReq_within (h : Within p bay bound u) (img : Image) (zn : Zone) (b : Nat) (q : TruckReq) :
    Within p bay bound (pursueTruckReq u img zn b q) := by
  have checked := versionCheck_within h b
  unfold pursueTruckReq
  dsimp only
  split
  · exact checked
  · exact applyTruckReq_within checked _ _ _ _

theorem bayClaimChanged_within (h : Within p bay bound u) (b : Nat) : Within p bay bound (bayClaimChanged u b) := by
  unfold bayClaimChanged
  split
  · exact h
  split
  · exact h
  dsimp only
  split
  · split
    · exact versionCheck_within h _
    · exact h
  · split
    · exact pursueTruckReq_within h _ _ _ _
    · exact h

theorem staleEnded_within (h : Within p bay bound u) (b : Nat) : Within p bay bound (staleEnded u b) := by
  unfold staleEnded
  split
  · exact h
  split
  · split
    · exact pursueTruckReq_within h _ _ _ _
    · exact h
  · exact h

/-! ## Orders -/

theorem setActive_within (h : Within p bay bound u) (f : Active → Active) : Within p bay bound (setActive u f) :=
  h

theorem sendTarget_within (h : Within p bay bound u) : Within p bay bound (sendTarget u) := by
  unfold sendTarget
  split <;> exact h

theorem enterPhase_within (h : Within p bay bound u) (img : Image) (ph : Phase) : Within p bay bound (enterPhase u img ph) := by
  unfold enterPhase
  split
  · exact h
  · rename_i a _
    have entered : Within p bay bound (({ u with moc.active := some (a.entering img u.sample u.now ph) } : State).emit
      (.orderState a.ord.id (.phase ph))) := h
    exact (sendTarget_within entered).compute

theorem enterDecide_within (h : Within p bay bound u) (img : Image) : Within p bay bound (enterDecide u img) :=
  enterPhase_within h img .decide

theorem enterTested_within (h : Within p bay bound u) (img : Image) (ph : Phase) :
    Within p bay bound (enterTested u img ph) := enterPhase_within h img ph

theorem releaseUnneeded_within (h : Within p bay bound u) (t : Target) : Within p bay bound (releaseUnneeded u t) := by
  unfold releaseUnneeded
  split
  · exact h
  split
  · exact h
  · exact h.releaseClaim _ _

theorem dropDest_within (h : Within p bay bound u) (t : Target) : Within p bay bound (dropDest u t) :=
  releaseUnneeded_within (setActive_within h _) t

theorem dropDests_within (h : Within p bay bound u) : Within p bay bound (dropDests u) := by
  unfold dropDests
  split
  · exact h
  · exact Within.foldl (fun _ t k => dropDest_within k t) _ h

theorem finishOrder_within (h : Within p bay bound u) (rec : Ended) : Within p bay bound (finishOrder u rec) := by
  have marked : Within p bay bound (markAtEnd ((u.emitTarget rec.ord.id (endPhase rec.ending) u.sample.x u.sample.y
      u.sample.z).emit (.orderState rec.ord.id (.ended rec.ending))) rec.ending) := by
    unfold markAtEnd
    split
    · exact h
    · exact h.of_moves (markUntracked_moves (((Moves.refl u).target _ _ _ _ _).emit _) _) (markUntracked_tbu _ _)
    · exact h.of_moves (markUntracked_moves (((Moves.refl u).target _ _ _ _ _).emit _) _) (markUntracked_tbu _ _)
  exact Within.compute marked

theorem endOrder_within (h : Within p bay bound u) (e : OrderEnd) : Within p bay bound (endOrder u e) := by
  unfold endOrder
  split
  · exact h
  · rename_i a _
    have closed := h.of_moves (closeSession_moves (.refl u) a.ord.id) (closeSession_tbu u a.ord.id)
    exact finishOrder_within (Within.foldl (fun _ t k => k.releaseClaim t .order) _ closed) _

theorem askOne_within (h : Within p bay bound u) (t : Target) : Within p bay bound (askOne u t) := by
  unfold askOne
  split
  · exact h
  rename_i a _
  split
  · exact setActive_within h _
  have asked := h.ask t a.ord.prio .order
  generalize ask u t a.ord.prio .order = r at asked
  obtain ⟨v, ans⟩ := r
  cases ans with
  | listFull => exact setActive_within asked _
  | badTarget => exact endOrder_within asked _
  | badState => exact asked
  | answered st => exact asked

theorem askTargets_within (h : Within p bay bound u) (ts : List Target) : Within p bay bound (askTargets u ts) :=
  Within.foldl (fun _ t k => askOne_within k t) ts (setActive_within h _)

theorem askTransits_within (h : Within p bay bound u) (n : Nat) (img : Image) : Within p bay bound (askTransits n u img) := by
  induction n generalizing u with
  | zero => exact h
  | succ n ih =>
    unfold askTransits
    split
    · exact h
    split
    · exact h
    split
    · exact h
    split
    · exact h
    split
    · exact h
    · dsimp only
      split
      · exact ih (askTargets_within (setActive_within h _) _)
      · exact askTargets_within (setActive_within h _) _

theorem askTransit_within (h : Within p bay bound u) (img : Image) : Within p bay bound (askTransit u img) :=
  askTransits_within h 5 img

theorem sourceVersion_within (h : Within p bay bound u) (src : Source) : Within p bay bound (sourceVersion u src) := by
  unfold sourceVersion
  split
  · exact h
  · exact versionCheck_within h _

theorem tellSourceLimit_within (h : Within p bay bound u) (src : Source) (ans : SourceAnswer) :
    Within p bay bound (tellSourceLimit u src ans) := by
  unfold tellSourceLimit
  split
  · exact tellLimit_within h _
  · exact h

theorem enterClaimSource_within (h : Within p bay bound u) (img : Image) : Within p bay bound (enterClaimSource u img) := by
  have entered := enterPhase_within h img .claimSource
  unfold enterClaimSource
  dsimp only
  split
  · exact entered
  · exact askTargets_within entered _

theorem enterClaimDest_within (h : Within p bay bound u) (img : Image) : Within p bay bound (enterClaimDest u img) := by
  have entered := enterPhase_within h img .claimDest
  unfold enterClaimDest
  dsimp only
  split
  · exact entered
  · exact askTargets_within entered _

theorem activate_within (h : Within p bay bound u) : Within p bay bound (activate u) := by
  unfold activate
  split
  · rename_i img o rest _ _ _
    split
    · exact h
    have told := tellSourceLimit_within (sourceVersion_within h o.source) o.source
      (sourceTest (sourceVersion u o.source) img o).answer
    have queued (m : Moc) := told.of_same (s := { tellSourceLimit (sourceVersion u o.source) o.source
      (sourceTest (sourceVersion u o.source) img o).answer with moc := m }) rfl rfl
    dsimp only
    split
    · exact finishOrder_within (queued _) _
    · exact enterClaimSource_within (queued _) _
  · exact h

theorem giveUpSlot_within (h : Within p bay bound u) (img : Image) (id : Nat) : Within p bay bound (giveUpSlot u img id) :=
  enterDecide_within (setActive_within (dropDest_within h _) _) _

theorem tellIfLimit_within (h : Within p bay bound u) (b : Nat) (r : Except DestFail (Nat × Place)) :
    Within p bay bound (tellIfLimit u b r) := by
  unfold tellIfLimit
  split
  · exact tellLimit_within h _
  · exact h

theorem tryDest_within (h : Within p bay bound u) (img : Image) (a : Active) (d : Dest) :
    Within p bay bound (tryDest u img a d).1 := by
  unfold tryDest
  split
  · split <;> exact h
  · split
    · exact h
    · split <;> exact h
  · dsimp only
    split
    · exact tellIfLimit_within (versionCheck_within h _) _ _
    · exact versionCheck_within h _

theorem tryPrimary_within (h : Within p bay bound u) (img : Image) (a : Active) :
    Within p bay bound (tryPrimary u img a).1 := by
  unfold tryPrimary
  split
  · exact h
  · exact tryDest_within h _ _ _

theorem tryAlternate_within (h : Within p bay bound u) (img : Image) (a : Active) :
    Within p bay bound (tryAlternate u img a).1 := by
  unfold tryAlternate
  split
  · exact h
  · exact tryDest_within h _ _ _

theorem useDest_within (h : Within p bay bound u) (img : Image) (d : DestUse) (q : Place) (why : Option DestFail) :
    Within p bay bound (useDest u img d q why) := by
  unfold useDest
  dsimp only
  split
  · exact h
  · exact enterClaimDest_within (setActive_within (Within.foldl (fun _ t k => dropDest_within k t) _ h) _) img

theorem settleDest_within (h : Within p bay bound u) : Within p bay bound (settleDest u) := by
  unfold settleDest
  split
  · rename_i a img _ _
    split
    · exact h
    have primary := tryPrimary_within h img a
    generalize tryPrimary u img a = r at primary
    obtain ⟨v, r⟩ := r
    cases r with
    | ok q => exact useDest_within primary _ _ _ _
    | error why =>
      have alternate := tryAlternate_within primary img a
      dsimp only at alternate ⊢
      generalize tryAlternate v img a = r at alternate
      obtain ⟨w, r⟩ := r
      cases r with
      | ok q =>
        have diverted : Within p bay bound (w.emit (.orderDiverted a.ord.id why)) := alternate
        exact useDest_within diverted _ _ _ _
      | error _ =>
        dsimp only
        unfold enterHold
        split
        · exact alternate
        · have dropped := dropDests_within (enterPhase_within alternate img .holdLoad)
          exact dropped
  · exact h

theorem positionFits_within (h : Within p bay bound u) (img : Image) (a : Active) (b pos : Nat) :
    Within p bay bound (positionFits u img a b pos).1 := by
  unfold positionFits
  dsimp only
  split
  · exact versionCheck_within h _
  · exact tellIfLimit_within (versionCheck_within h _) _ _

theorem arrive_within (h : Within p bay bound u) (img : Image) : Within p bay bound (arrive u img) := by
  unfold arrive
  split
  · exact h
  split
  · exact enterPhase_within h _ _
  · rename_i a _ _ _ b pos _ _
    have fits := positionFits_within h img a b pos
    generalize positionFits u img a b pos = r at fits
    obtain ⟨v, ok⟩ := r
    cases ok
    · exact enterDecide_within fits _
    · exact enterPhase_within (setActive_within fits _) _ _
  · exact enterPhase_within h _ _
  · exact h

theorem entryTest_within (h : Within p bay bound u) (img : Image) : Within p bay bound (entryTest u img) := by
  unfold entryTest
  split
  · exact h
  split
  · exact h
  split
  · split
    · exact arrive_within h _
    · exact h
  · split
    · exact arrive_within h _
    · exact h
  · split
    · exact endOrder_within h _
    · exact h
  · exact h

theorem claimSourceTest_within (h : Within p bay bound u) (img : Image) (a : Active) :
    Within p bay bound (claimSourceTest u img a) := by
  have told := tellSourceLimit_within (sourceVersion_within h a.ord.source) a.ord.source
    (sourceTest (sourceVersion u a.ord.source) img a.ord).answer
  unfold claimSourceTest
  dsimp only
  split
  · exact enterTested_within (setActive_within told _) _ _
  · exact told
  · exact told
  · exact endOrder_within told _

theorem claimDestTest_within (h : Within p bay bound u) (img : Image) (a : Active) :
    Within p bay bound (claimDestTest u img a) := by
  unfold claimDestTest
  split
  · rename_i b pos _
    have fits := positionFits_within h img a b pos
    generalize positionFits u img a b pos = r at fits
    obtain ⟨v, ok⟩ := r
    cases ok
    · exact enterDecide_within fits _
    · exact enterTested_within (setActive_within fits _) _ _
  · exact enterTested_within h _ _

theorem progress_within (h : Within p bay bound u) : Within p bay bound (progress u) := by
  unfold progress
  split
  · split
    · split
      · exact claimSourceTest_within h _ _
      · exact h
    · split
      · exact giveUpSlot_within h _ _
      · split
        · exact claimDestTest_within h _ _
        · exact h
    · exact entryTest_within (askTransit_within h _) _
    · exact entryTest_within (askTransit_within h _) _
    · exact entryTest_within h _
    · exact h
  · exact h

theorem claimLeft_within (h : Within p bay bound u) (img : Image) (a : Active) (t : Target) :
    Within p bay bound (claimLeft u img a t) := by
  unfold claimLeft
  split
  · split
    · exact enterClaimSource_within h _
    · exact h
  · split
    · split
      · exact giveUpSlot_within h _ _
      · exact h
      · exact h
    · exact h
  · split
    · split
      · exact giveUpSlot_within h _ _
      · exact enterClaimDest_within h _
      · exact h
    · exact h
  · exact h

theorem orderClaimChanged_within (h : Within p bay bound u) (id : Nat) (t : Target) (left : Bool) :
    Within p bay bound (orderClaimChanged u id t left) := by
  unfold orderClaimChanged
  split
  · split
    · exact h
    split
    · exact claimLeft_within h _ _ _
    · unfold claimMoved
      split
      · exact progress_within h
      · exact progress_within h
      · exact askTransit_within h _
      · exact askTransit_within h _
      · exact h
  · exact h

theorem askAgain_within (h : Within p bay bound u) : Within p bay bound (askAgain u) := by
  unfold askAgain
  split
  · split
    · exact h
    split
    · exact askTargets_within h _
    · exact askTargets_within h _
    · exact askTransit_within (setActive_within h _) _
    · exact askTransit_within (setActive_within h _) _
    · exact h
  · exact h

theorem takeResult_within (h : Within p bay bound u) (r : WeighResult) (b : Bool) : Within p bay bound (takeResult u r b) := by
  unfold takeResult
  split
  · split
    · exact h
    split
    · split
      · exact enterDecide_within (setActive_within h _) _
      · exact h
    · split
      · exact setActive_within h _
      · exact h
  · exact h

/-! ## Changes of source and destination -/

theorem sourceSlotChanged_within (h : Within p bay bound u) (img : Image) (a : Active) (id : Nat) :
    Within p bay bound (sourceSlotChanged u img a id) := by
  unfold sourceSlotChanged
  split
  · exact progress_within h
  · split
    · exact endOrder_within h _
    · exact h
  · split
    · exact endOrder_within h _
    · exact h
  · split
    · exact endOrder_within h _
    · exact h
  · exact h

theorem destSlotChanged_within (h : Within p bay bound u) (img : Image) (a : Active) (id : Nat) :
    Within p bay bound (destSlotChanged u img a id) := by
  unfold destSlotChanged
  split
  · split
    · exact giveUpSlot_within h _ _
    · exact h
  · split
    · exact giveUpSlot_within h _ _
    · exact h
  · exact h

theorem orderSlotChanged_within (h : Within p bay bound u) (id : Nat) : Within p bay bound (orderSlotChanged u id) := by
  unfold orderSlotChanged
  split
  · rename_i a img _ _
    have source : Within p bay bound (if a.ord.source = .slot id then sourceSlotChanged u img a id else u) := by
      split
      · exact sourceSlotChanged_within h _ _ _
      · exact h
    dsimp only
    split
    · split
      · exact destSlotChanged_within source _ _ _
      · exact source
    · exact source
  · exact h

theorem sourceBayChanged_within (h : Within p bay bound u) (img : Image) (a : Active) (b pos : Nat) :
    Within p bay bound (sourceBayChanged u img a b pos) := by
  have checked := versionCheck_within h b
  unfold sourceBayChanged
  dsimp only
  split
  · exact progress_within h
  · split
    · exact endOrder_within (tellSourceLimit_within checked _ _) _
    · exact checked
  · split
    · exact endOrder_within (tellSourceLimit_within checked _ _) _
    · exact checked
  · exact h

theorem destBayChanged_within (h : Within p bay bound u) (img : Image) (a : Active) (b pos : Nat) :
    Within p bay bound (destBayChanged u img a b pos) := by
  have fits := positionFits_within h img a b pos
  unfold destBayChanged
  generalize positionFits u img a b pos = r at fits
  obtain ⟨v, ok⟩ := r
  cases ok <;> dsimp only at fits ⊢ <;> split
  · exact enterDecide_within fits _
  · exact enterDecide_within fits _
  · exact h
  · exact fits
  · exact fits
  · exact h

theorem bayAtSource_within (h : Within p bay bound u) (img : Image) (a : Active) (b : Nat) :
    Within p bay bound (bayAtSource u img a b) := by
  unfold bayAtSource
  split
  · split
    · exact sourceBayChanged_within h _ _ _ _
    · exact h
  · exact h

theorem bayAtDest_within (h : Within p bay bound u) (img : Image) (b : Nat) : Within p bay bound (bayAtDest u img b) := by
  unfold bayAtDest
  split
  · exact h
  split
  · split
    · exact destBayChanged_within h _ _ _ _
    · exact h
  · exact h
  · exact h

theorem followBays_within (h : Within p bay bound u) (img : Image) : Within p bay bound (followBays u img) := by
  unfold followBays
  split
  · exact h
  · have aimed (m : Moc) : Within p bay bound { u with moc := m } := h.of_same rfl rfl
    dsimp only
    split
    · exact aimed _
    · exact sendTarget_within (aimed _)

theorem orderBayChanged_within (h : Within p bay bound u) (b : Nat) : Within p bay bound (orderBayChanged u b) := by
  unfold orderBayChanged
  split
  · exact followBays_within (bayAtDest_within (bayAtSource_within h _ _ _) _ _) _
  · exact h

/-! ## Hand-ons -/

theorem serveWork_within (h : Within p bay bound u) (w : Work) : Within p bay bound (serveWork u w) := by
  cases w with
  | orderClaim id t st left => exact orderClaimChanged_within h _ _ _
  | truckClaim b => exact bayClaimChanged_within h _
  | claimRemoved => exact askAgain_within h
  | slotChanged slot => exact orderSlotChanged_within h _
  | bayChanged b => exact orderBayChanged_within h _
  | staleEnded b => exact staleEnded_within h _
  | weighResult r b => exact takeResult_within h _ _
  | activate => exact activate_within h
  | decide => exact settleDest_within h
  | progress => exact progress_within h
  | phaseChanged => exact h.of_moves (resettleSlots_moves (.refl u)) (resettleSlots_tbu u)

/-- The hand-ons of a command raise no required version above the highest one seen (R155). -/
theorem finish_within (h : Within p bay bound u) : Within p bay bound (State.finish u) := by
  have served (k : Nat) {u : State} (h : Within p bay bound u) : Within p bay bound (runWork k u) := by
    induction k generalizing u with
    | zero => exact h
    | succ k ih =>
      unfold runWork
      split
      · exact h
      · rename_i w rest _
        have taken : Within p bay bound { u with work := rest } := h
        exact ih (serveWork_within taken w)
  exact served 512 h

end

/-- A move of the hand-ons lowers no required version (R155). -/
theorem Move.required_le {s u : State} (h : Move false s u) (bay : Nat) :
    s.tbu.required.get bay ≤ u.tbu.required.get bay := by
  cases h with
  | compute => rw [compute_tbu]
  | offer => rw [offer_tbu]
  | changeWindow => unfold State.openChangeWindow; rw [offer_tbu]
  | required =>
    rename_i b v h
    show _ ≤ (s.tbu.required.set b v).get bay
    rcases perBay_get_set s.tbu.required b bay v with ⟨written, same⟩ | ⟨kept, _⟩
    · rw [written]
      rcases same with rfl | same
      · exact h
      · exact same ▸ h
    · exact kept.ge
  | _ => exact le_rfl

/-- The hand-ons lower no required version (R155). -/
theorem Moves.required_le {s u : State} (h : Moves false s u) (bay : Nat) :
    s.tbu.required.get bay ≤ u.tbu.required.get bay := by
  induction h with
  | refl => exact le_rfl
  | tail _ m ih => exact ih.trans (m.required_le bay)

end Sys2Proof.Machine
end

section
/-! A TRUCK_STATE: offered to its sender's record, and taken where its version is above the own one (R41, R163, R164). -/

namespace Sys2Proof.Machine

theorem bayZone_inside {img : Image} {bay : Nat} {zn : Zone} (h : bayZone img bay = some zn) : 1 ≤ bay ∧ bay ≤ 4 := by
  have found := List.find?_some h
  simp only [Bool.and_eq_true, decide_eq_true_eq] at found
  exact found.2

section
variable {s t v : State} {n serial bay version : Nat} {c : TruckContent} {img : Image} {zn : Zone} {p : Peer}

/-! ## The sender's record (R38, R41) -/

@[simp] theorem hearKnown_tbu (s : State) (n serial : Nat) : (hearKnown s n serial).tbu = s.tbu := by
  have reported (p : Peer) : (reportBack s p).tbu = s.tbu := by
    unfold reportBack
    split <;> rfl
  unfold hearKnown
  split
  · rfl
  · dsimp only
    split <;> simp [reported]

/-- The state in which a TRUCK_STATE is taken: its sender heard, and its version offered to the sender's record. -/
def offeredTo (s : State) (n serial bay version : Nat) : State :=
  offerVersion (hearKnown s n serial) n serial bay version

theorem offerVersion_eq (s : State) (n serial bay version : Nat) :
    offerVersion s n serial bay version = { s with ptb := (offerVersion s n serial bay version).ptb } := by
  unfold offerVersion
  split <;> rfl

theorem offeredTo_tbu (s : State) (n serial bay version : Nat) : (offeredTo s n serial bay version).tbu = s.tbu := by
  rw [offeredTo, offerVersion_eq]
  exact hearKnown_tbu s n serial

theorem offeredTo_frame :
    HandOnFrame { s with ptb := (offeredTo s n serial bay version).ptb } (offeredTo s n serial bay version) := by
  have heard := (hearKnown_frame (s := s) (n := n) (serial := serial)).with_ptb (offeredTo s n serial bay version).ptb
  have put : offeredTo s n serial bay version
      = { hearKnown s n serial with ptb := (offeredTo s n serial bay version).ptb } := offerVersion_eq _ _ _ _ _
  exact put ▸ heard

/-- The record of a known sender: heard now, with the version offered (R38, R41). -/
theorem offeredTo_record (hk : knownPeer s n serial = some p) :
    peerAt (offeredTo s n serial bay version).ptb n = some ((p.revived s.now).offered bay version) := by
  obtain ⟨hat, hs⟩ := knownPeer_eq_some.mp hk
  have hn : p.n = n := (mem_of_peerAt hat).2
  have found : knownPeer (hearKnown s n serial) n serial = some (p.revived s.now) :=
    knownPeer_eq_some.mpr ⟨hn ▸ (hearKnown_recorded hk).lookup.1, hs⟩
  have number : ((p.revived s.now).offered bay version).n = n := (congrArg Peer.n (offered_frame _ _ _)).trans hn
  simp only [offeredTo, offerVersion, found]
  rw [peerAt_putPeer, if_pos number.symm]

/-! ## The record of the bay (R163, R164) -/

/-- The record of a bay replaced, with the required version at least the highest one seen. -/
def replacedTruck (s : State) (bay : Nat) (t : Truck) : State :=
  putRequired (putTruck s bay t) bay (highestSeen s.ptb bay)

theorem applyTruckState_after (s : State) (n bay version : Nat) (c : TruckContent) :
    Moves false (replacedTruck s bay { version := version, content := c }) (applyTruckState s n bay version c) := by
  have told := handBay_moves (tellUpdated_moves (staleMoved_moves (cmd := false)
    (.refl (replacedTruck s bay { version := version, content := c })) (bayStale s.tbu bay) bay) bay (.peer n)) bay
  exact .ite told (told.hand _)

theorem applyTruckState_within {bound : Nat} (h : Within s.ptb bay bound s) :
    Within s.ptb bay bound (applyTruckState s n bay version c) := by
  obtain ⟨_, ⟨low, high, seen⟩, required⟩ := h
  have replaced : Within s.ptb bay bound (replacedTruck s bay { version := version, content := c }) :=
    ⟨rfl, ⟨low, high, seen⟩, (perBay_get_set_same _ _).trans_le (max_le required seen)⟩
  have moved : Within s.ptb bay bound (tellUpdated (staleMoved (bayStale s.tbu bay)
      (replacedTruck s bay { version := version, content := c }) bay) bay (.peer n)) := staleMoved_within replaced _ bay
  have told := handBay_within moved bay
  unfold applyTruckState
  dsimp only
  split <;> exact told

/-- Content that fails R153, and a version not above the own one, leave the record of the bay. -/
theorem takeTruckState_kept (image : s.cpt.image = some img) (zone : bayZone img bay = some zn)
    (h : stateFail img zn c ≠ none ∨ version ≤ (truckAt s bay).version) :
    Moves false s (takeTruckState s n bay version c) := by
  simp only [takeTruckState, image, zone]
  split
  · exact (Moves.refl s).emit _
  · rename_i good
    split_ifs with below same content
    · exact .refl s
    · exact .refl s
    · exact raiseRequired_moves ((Moves.refl s).emit _) _ _
    · exact absurd (h.resolve_left (not_not_intro good)) (by omega)

/-- Equal versions with another content raise the required version past them (R164). -/
theorem takeTruckState_clash (image : s.cpt.image = some img) (zone : bayZone img bay = some zn)
    (good : stateFail img zn c = none) (same : version = (truckAt s bay).version) (content : c ≠ (truckAt s bay).content) :
    takeTruckState s n bay version c
      = raiseRequired (s.emit (.truckVersionClash bay n version)) bay (version + 1) := by
  simp only [takeTruckState, image, zone, good]
  rw [if_neg (by omega), if_pos same, if_neg content]

theorem takeTruckState_newer (image : s.cpt.image = some img) (zone : bayZone img bay = some zn)
    (good : stateFail img zn c = none) (newer : (truckAt s bay).version < version) :
    takeTruckState s n bay version c = applyTruckState s n bay version c := by
  simp only [takeTruckState, image, zone, good]
  rw [if_neg (by omega), if_neg (by omega)]

theorem raiseRequired_le (s : State) (bay v : Nat) : v ≤ (raiseRequired s bay v).tbu.required.get bay := by
  have put : (putRequired s bay v).tbu.required.get bay = max (s.tbu.required.get bay) v := perBay_get_set_same _ _
  rw [raiseRequired, staleMoved_tbu, put]
  exact le_max_right _ _

theorem execRxTruckState_of (h : Routed s n serial (.truckState bay version c)) (outside : s.rlc.nodeState ≠ .config) :
    exec (.rxTruckState n serial bay version c) s
      = .next (State.finish (takeTruckState (offeredTo s n serial bay version) n bay version c)) := by
  have node : (hearKnown s n serial).rlc.nodeState = s.rlc.nodeState := by
    rw [(hearKnown_frame (s := s) (n := n) (serial := serial)).rlc]
  change execRxTruckState n serial bay version c s = _
  rw [execRxTruckState, receive_routed h]
  exact congrArg (fun t => Host.Outcome.next (State.finish t)) (if_neg (node ▸ outside))

/-- The bay records after a TRUCK_STATE that replaces the one of its bay, its hand-ons served. -/
theorem replaced_served (inside : 1 ≤ bay ∧ bay ≤ 4) (idle : s.tbu.requests.get bay = none) :
    let u := State.finish (applyTruckState s n bay version c)
    HandOnFrame s u ∧ u.tbu.trucks.get bay = { version := version, content := c }
      ∧ u.tbu.required.get bay = max (s.tbu.required.get bay) (highestSeen s.ptb bay)
      ∧ ∀ b, 1 ≤ b → b ≤ 4 → b ≠ bay → s.tbu.requests.get b = none → u.tbu.trucks.get b = s.tbu.trucks.get b := by
  intro u
  have moves : Moves false (replacedTruck s bay { version := version, content := c }) u :=
    (applyTruckState_after s n bay version c).trans (finish_moves _)
  obtain ⟨-, -, bounded⟩ : Within s.ptb bay (max (s.tbu.required.get bay) (highestSeen s.ptb bay)) u :=
    finish_within (applyTruckState_within ⟨rfl, ⟨inside.1, inside.2, le_max_right _ _⟩, le_max_left _ _⟩)
  have raised : max (s.tbu.required.get bay) (highestSeen s.ptb bay) ≤ u.tbu.required.get bay :=
    (perBay_get_set_same s.tbu.required _).ge.trans (moves.required_le bay)
  refine ⟨moves.frame, (moves.noRequest bay idle).2.trans (perBay_get_set_same _ _),
    le_antisymm bounded raised, fun b b1 b4 apart free => ?_⟩
  exact (moves.noRequest b free).2.trans (perBay_get_set_other _ _ inside ⟨b1, b4⟩ apart.symm)

end

/-- Settles O30: the version offered to the sender's record, and the bay's record replaced or kept by the row of R163. -/
theorem peerTruckRecordIsTakenWhenNewer : Obligations.PeerTruckRecordIsTakenWhenNewer := by
  intro s n serial bay version c img zn h outside image zone idle own
  have inside := bayZone_inside zone
  have before := offeredTo_frame (s := s) (n := n) (serial := serial) (bay := bay) (version := version)
  have tbu := offeredTo_tbu s n serial bay version
  have record {p : Peer} (hat : peerAt s.ptb n = some p) (hs : p.serial = serial) :=
    offeredTo_record (bay := bay) (version := version) (knownPeer_eq_some.mpr ⟨hat, hs⟩)
  have run := execRxTruckState_of h outside
  generalize offeredTo s n serial bay version = y at before tbu record run
  have image : y.cpt.image = some img := by rw [before.cpt]; exact image
  have own_eq : truckAt y bay = own := congrArg (fun t : Tbu => t.trucks.get bay) tbu
  refine ⟨_, run, ?_⟩
  have ends {u : State} (served : HandOnFrame y u) : HandOnFrame { s with ptb := u.ptb } u
      ∧ ∀ p, peerAt s.ptb n = some p → p.serial = serial → ∃ q, peerAt u.ptb n = some q
        ∧ q = { p with versions := q.versions, heard := s.now, liveness := .live,
                       cleared := p.cleared && p.liveness != .lost }
        ∧ q.versions.get bay = max (p.versions.get bay) version := by
    rw [served.ptb]
    refine ⟨before.trans served, fun p hat hs => ⟨_, record hat hs, offered_frame _ _ _, ?_⟩⟩
    rw [offered_versions inside, perBay_get_set_same]
    rfl
  by_cases kept : stateFail img zn c ≠ none ∨ version ≤ own.version
  · have taken := takeTruckState_kept (n := n) (s := y) image zone (by rwa [own_eq])
    have served := taken.trans (finish_moves _)
    have truck (b : Nat) (free : s.tbu.requests.get b = none) := (served.noRequest b (tbu ▸ free)).2
    rw [tbu] at truck
    obtain ⟨frame, records⟩ := ends served.frame
    refine ⟨frame, records, fun good newer => ?_, fun good newer => ?_, fun _ => truck bay idle, fun good same content => ?_,
      fun b _ _ _ free => truck b free⟩
    · exact absurd kept (by simp [good, newer])
    · exact absurd kept (by simp [good, newer])
    · rw [takeTruckState_clash image zone good (by rwa [own_eq]) (by rwa [own_eq])]
      exact (raiseRequired_le _ _ _).trans ((finish_moves _).required_le bay)
  · obtain ⟨good, newer⟩ : stateFail img zn c = none ∧ own.version < version := by
      simpa [not_or] using kept
    rw [takeTruckState_newer image zone good (by rwa [own_eq])]
    obtain ⟨served, truck, required, others⟩ := replaced_served (n := n) (version := version) (c := c) inside (tbu ▸ idle)
    obtain ⟨frame, records⟩ := ends served
    rw [tbu] at required others
    refine ⟨frame, records, fun _ _ => truck, fun _ _ _ _ => ?_, fun h => absurd h kept,
      fun _ same => absurd same newer.ne', others⟩
    rw [required, served.ptb]

end Sys2Proof.Machine
end

section
/-! SUPPORT. What keeps the permits of a node that may not move, and the image with its slots (R68, R125, R214): every
sequence of moves, and every change that only commands make, but for START and the starts. -/

namespace Sys2Proof.Machine

/-- Permits of 0 with cause STATE outside RUNNING stay so, and the image and the slots recorded stay as they were. -/
structure Steady (s t : State) : Prop where
  permits : PermitsOk s → PermitsOk t
  image : t.cpt.image = s.cpt.image
  slots : t.smu.slots.map (·.id) = s.smu.slots.map (·.id)

section
variable {s t u : State}

theorem Steady.refl (s : State) : Steady s s := ⟨id, rfl, rfl⟩

theorem Steady.trans (h : Steady s t) (k : Steady t u) : Steady s u :=
  ⟨k.permits ∘ h.permits, k.image.trans h.image, k.slots.trans h.slots⟩

/-- A change that leaves the node state, the permit record, the image and the slot map as they are. -/
theorem Steady.plain (node : t.rlc.nodeState = s.rlc.nodeState) (record : t.epu.record = s.epu.record)
    (image : t.cpt.image = s.cpt.image) (slots : t.smu.slots = s.smu.slots) : Steady s t :=
  ⟨fun h => by rwa [PermitsOk, node, record], image, by rw [slots]⟩

/-! ## Moves -/

theorem compute_permitsOk (h : PermitsOk s) : PermitsOk s.compute := by
  intro outside
  rw [compute_rlc] at outside
  by_cases reset : s.rlc.nodeState = .reset
  · rw [State.compute, if_pos reset]
    exact h outside
  · exact compute_permits outside reset

theorem putSlot_ids (m : Smu) (id : Nat) (r : SlotRec) : (putSlot m id r).slots.map (·.id) = m.slots.map (·.id) := by
  rw [putSlot, List.map_map]
  refine List.map_congr_left fun t _ => ?_
  simp only [Function.comp_apply]
  split <;> rfl

theorem Move.steady {b : Bool} (m : Move b s t) : Steady s t where
  permits := by
    have node := m.node.1
    cases m with
    | compute => exact compute_permitsOk
    | offer => exact fun h => by rwa [PermitsOk, node, offer_epu]
    | notice => exact fun h => by rwa [PermitsOk, node, State.issueNotice, offer_epu]
    | changeWindow => exact fun h => by rwa [PermitsOk, node, State.openChangeWindow, offer_epu]
    | _ => exact id
  image := ((Moves.refl s).tail m).image
  slots := by
    cases m with
    | compute => rw [compute_smu]
    | offer => rw [offer_smu]
    | notice => rw [State.issueNotice, offer_smu]
    | changeWindow => rw [State.openChangeWindow, offer_smu]
    | slot _ id r => exact putSlot_ids s.smu id r
    | _ => rfl

theorem Moves.steady {b : Bool} (h : Moves b s t) : Steady s t := by
  induction h with
  | refl => exact .refl _
  | tail _ m ih => exact ih.trans m.steady

theorem Steady.moves {b : Bool} (h : Steady s t) (k : Moves b t u) : Steady s u := h.trans k.steady

theorem Steady.emit (h : Steady s t) (e : Event) : Steady s (t.emit e) := h.moves ((Moves.refl (cmd := false) t).emit e)

theorem Steady.finish (h : Steady s t) : Steady s (State.finish t) := h.moves (finish_moves t)

/-! ## Line access and schedules -/

/-- A change of the clock, the draws and the RLC but for the node state. -/
theorem Steady.of_rlc {now draws : Nat} {r : Rlc} (node : r.nodeState = s.rlc.nodeState) :
    Steady s { s with now := now, draws := draws, rlc := r } := .plain node rfl rfl rfl

theorem reach_steady (s : State) (n : Nat) : Steady s (s.reach n) := .of_rlc rfl

theorem Lined.steady (h : Lined s t) : Steady s t := by
  unfold Lined at h
  rw [h]
  exact .plain rfl rfl rfl rfl

theorem beginAttempt_steady (s : State) : Steady s s.beginAttempt := by
  rw [beginAttempt_frame]
  exact .of_rlc rfl

theorem Steady.offer (h : Steady s t) (i : TxItem) : Steady s (t.offer i) := h.trans (offer_lined t i).steady

theorem dropHead_steady (s : State) : Steady s s.dropHead :=
  .trans (.of_rlc (now := s.now) (draws := s.draws) (by rfl)) (beginAttempt_steady _)

theorem failAttempt_steady (s : State) : Steady s (failAttempt s) := by
  unfold failAttempt
  split
  · exact .trans (.of_rlc (now := s.now) (draws := s.draws) (by rfl)) (dropHead_steady _)
  · exact .trans (.of_rlc (now := s.now) (draws := s.draws) (by rfl)) (beginAttempt_steady _)

theorem frameSent_steady (s : State) : Steady s (frameSent s) :=
  .trans (.of_rlc (now := s.now) (draws := s.draws) (by rfl)) (dropHead_steady _)

theorem queueBeacon_steady (s : State) : Steady s s.queueBeacon := (queueBeacon_lined s).steady

theorem queueProfile_steady (s : State) : Steady s s.queueProfile :=
  .offer (.of_rlc (now := s.now) (draws := s.draws) (by rfl)) _

/-! ## The crane port -/

/-- A change of the CPT that leaves the image. -/
theorem Steady.of_cpt {c : Cpt} (image : c.image = s.cpt.image) : Steady s { s with cpt := c } := .plain rfl rfl image rfl

theorem countBadFrame_steady (s : State) : Steady s (countBadFrame s) := .of_cpt rfl

theorem dropRequest_steady (s : State) : Steady s (dropRequest s) := .of_cpt rfl

theorem queueResponse_steady (s : State) (r : Response) : Steady s (s.queueResponse r) := .of_cpt rfl

theorem answer_steady (s : State) (tag : ReqTag) (r : Request) (st : Status) (why : Reason) (c : RespContent) :
    Steady s (answer s tag r st why c) := by
  unfold answer
  dsimp only
  split
  · exact queueResponse_steady s _
  · exact .of_cpt rfl

/-- A request command whose service is steady is steady. -/
theorem takeRequest_steady {k : ReqKind} {serve : State → ReqTag → Request → State}
    (h : ∀ (u : State) tag r, Steady u (serve u tag r)) : Steady s (takeRequest s k serve) := by
  have dropped := dropRequest_steady s
  rcases takeRequest_cases s k serve with e | ⟨_, ⟨resp, e⟩ | ⟨tag, r, e⟩⟩ | ⟨tag, r, _, _, _, _, e⟩ <;> rw [e]
  · exact .refl s
  · exact dropped.trans (queueResponse_steady _ _)
  · exact dropped.trans (answer_steady _ _ _ _ _ _)
  · exact dropped.trans (h _ _ _)

/-! ## Node states -/

/-- A node state entered: outside RUNNING its computation sets the permits to 0 (R15, R68). -/
theorem setNode_steady {st : NodeState} (h : st ≠ .reset) (s : State) (c : FaultCause) : Steady s (setNode s st c) := by
  have moves := setNode_moves s st c
  obtain ⟨-, image, slots⟩ := moves.steady
  refine ⟨fun _ outside => setNode_permits ?_ h s c, image, slots⟩
  rwa [moves.nodeState] at outside

theorem stopTimers_steady (s : State) : Steady s (stopTimers s) := .plain rfl rfl rfl rfl

theorem keepBeacon_steady (s : State) : Steady s s.keepBeacon := by
  unfold State.keepBeacon
  dsimp only
  split
  · exact .plain rfl rfl rfl rfl
  · refine .trans ?_ (beginAttempt_steady _)
    exact .plain rfl rfl rfl rfl

theorem faultFrames_steady (s : State) (cause : FaultCause) (b : Bool) : Steady s (faultFrames s cause b) := by
  unfold faultFrames
  dsimp only
  split
  · split
    · exact (queueBeacon_steady s).trans (queueProfile_steady _)
    · exact queueBeacon_steady s
  · exact .plain rfl rfl rfl rfl

theorem enterFault_steady (s : State) (cause : FaultCause) : Steady s (enterFault s cause) := by
  have stopped : Steady s { stopTimers s with rlc.lastFault := cause } := .plain rfl rfl rfl rfl
  rw [enterFault_eq]
  exact (((stopped.trans (setNode_steady (by decide) _ cause)).moves (failBlocks_moves _)).trans
    (keepBeacon_steady _)).trans (faultFrames_steady _ _ _)

theorem enterConfig_steady (s : State) : Steady s (enterConfig s) :=
  Steady.trans (t := s.clearQueue) (.plain rfl rfl rfl rfl) (setNode_steady (by decide) _ .none)

theorem enterJoining_steady (s : State) : Steady s (enterJoining s) := by
  rw [enterJoining_eq]
  refine .offer (.trans ?_ (setNode_steady (by decide) _ _)) _
  exact .plain rfl rfl rfl rfl

theorem enterRunning_steady (s : State) : Steady s (enterRunning s) :=
  ((stopTimers_steady s).trans (setNode_steady (by decide) _ _)).trans ((queueBeacon_steady _).trans
    ((queueProfile_steady _).moves ((Moves.refl (cmd := false) _).hand _)))

theorem resumeRunning_steady (s : State) : Steady s (resumeRunning s) :=
  ((stopTimers_steady s).trans (setNode_steady (by decide) _ _)).trans
    ((queueProfile_steady _).moves ((Moves.refl (cmd := false) _).hand _))

theorem enterParked_steady (s : State) : Steady s (enterParked s) :=
  .trans ((setNode_steady (by decide) s .none).moves
    (withdrawTruckReqs_moves (parkClaims_moves (cmd := false) (.refl _)) .nodeParked)) (queueBeacon_steady _)

theorem enterResuming_steady (s : State) : Steady s (enterResuming s) :=
  .trans (.trans (setNode_steady (by decide) s .none) (queueBeacon_steady _)) (.plain rfl rfl rfl rfl)

theorem leaveReset_steady (s : State) (p : Straps) : Steady s (leaveReset s p) := by
  have pins : Steady s (readStraps { s with now := 0 } p) := .plain rfl rfl rfl rfl
  unfold leaveReset
  dsimp only
  split
  · exact pins.trans (enterConfig_steady _)
  · exact pins.trans (enterFault_steady _ _)

/-- RESTART sets the permits to 0 and keeps the image and the slot map (R25, R73). -/
theorem discard_steady (s : State) : Steady s (discard s) := ⟨fun _ _ => rfl, rfl, rfl⟩

theorem softReset_steady (s : State) (p : Straps) : Steady s (softReset s p) := by
  have pins : Steady s (readStraps (discard (markUntracked s .restart)) p) :=
    ((markUntracked_moves (cmd := false) (.refl s) .restart).steady.trans (discard_steady _)).trans
      (.plain rfl rfl rfl rfl)
  unfold softReset
  dsimp only
  split
  · exact pins.trans (enterFault_steady _ _)
  · split
    · exact pins.trans (enterJoining_steady _)
    · exact pins.trans (enterConfig_steady _)

end

end Sys2Proof.Machine
end

section
/-! SUPPORT. Received frames, samples and requests keep the permits of a node that may not move, and the image with its
slots. -/

namespace Sys2Proof.Machine

section
variable {s t u : State}

/-! ## Records -/

theorem Steady.put (h : Steady s t) (p : Peer) : Steady s (putPeer t p) := h.trans (.plain rfl rfl rfl rfl)

/-- A record put into the table and handed on. -/
theorem Steady.putChanged (h : Steady s t) (p : Peer) : Steady s (recordChanged (putPeer t p)) :=
  (h.put p).moves (recordChanged_moves (cmd := false) (.refl _))

theorem reported_steady (s : State) (before after : Peer) : Steady s (reportField s before after) :=
  (reportField_moves (cmd := false) (.refl s) before after).steady

theorem heardAgain_steady (s : State) (p : Peer) : Steady s (reportBack s p) :=
  (reportBack_moves (cmd := false) (.refl s) p).steady

theorem tellFull_steady (s : State) : Steady s (tellFull s) := by
  unfold tellFull
  split
  · exact .refl s
  · refine .emit ?_ _
    exact .plain rfl rfl rfl rfl

theorem startRecord_steady {n serial : Nat} {v : State} {p : Option Peer} (h : startRecord s n serial = (v, p)) :
    Steady s v := by
  rcases startRecord_cases s n serial with ⟨_, _, e⟩ | ⟨_, _, e⟩ | ⟨_, _, e⟩ <;> rw [e] at h <;> cases h
  · exact (Steady.refl s).emit _
  · exact tellFull_steady s
  · exact (Steady.refl s).emit _

theorem putTrack_steady (s : State) (k : Track) : Steady s (putTrack s k) := .plain rfl rfl rfl rfl

theorem checkBeaconSeq_steady (s : State) (n serial seq : Nat) : Steady s (checkBeaconSeq s n serial seq) := by
  have told (e : Event) (k : Track) : Steady s (putTrack (s.emit e) k) := ((Steady.refl s).emit e).trans (putTrack_steady _ _)
  unfold checkBeaconSeq
  dsimp only
  split
  · exact .refl s
  split
  · split
    · exact told _ _
    · exact (told _ _).emit _
  split
  · exact putTrack_steady s _
  · exact (putTrack_steady s _).emit _

/-! ## Frames -/

theorem takeJoin_steady (s : State) (n serial pattern : Nat) (x : Int) : Steady s (takeJoin s n serial pattern x) := by
  unfold takeJoin
  split
  · rename_i p _
    unfold joinKnown
    dsimp only
    split
    · exact ((heardAgain_steady s p).trans (reported_steady _ _ _)).putChanged _
    · exact ((((Steady.refl s).emit _).trans (heardAgain_steady _ p)).trans (reported_steady _ _ _)).putChanged _
  · split
    · exact startRecord_steady ‹_›
    · exact ((startRecord_steady ‹_›).trans (reported_steady _ _ _)).putChanged _

theorem takeBeacon_steady (s : State) (n serial : Nat) (b : Beacon) : Steady s (takeBeacon s n serial b) := by
  have checked {v : State} (h : Steady s v) (q : Peer) :
      Steady s (recordChanged (checkBeaconSeq (putPeer v q) n serial b.noticeSeq)) :=
    ((h.put q).trans (checkBeaconSeq_steady _ _ _ _)).moves (recordChanged_moves (cmd := false) (.refl _))
  unfold takeBeacon
  split
  · exact checked ((heardAgain_steady s _).trans (reported_steady _ _ _)) _
  · split
    · exact (startRecord_steady ‹_›).trans (checkBeaconSeq_steady _ _ _ _)
    · exact checked ((startRecord_steady ‹_›).trans (reported_steady _ _ _)) _

theorem takeProfile_steady (s : State) (n serial : Nat) (f : Profile) : Steady s (takeProfile s n serial f) := by
  have told {v : State} (h : Steady s v) (ok : Bool) : Steady s (if ok = true then v else v.emit (.peerProfileBad n)) := by
    split
    · exact h
    · exact h.emit _
  unfold takeProfile
  dsimp only
  split
  · rename_i p _
    have put (q : Peer) := (told (heardAgain_steady s p) (profileOk s.cpt.image f)).put q
    split
    · exact (put _).moves (recordChanged_moves (cmd := false) (.refl _))
    · generalize (if profileOk s.cpt.image f = true then some f else p.profile) = g at put
      by_cases changed : g ≠ p.profile
      · rw [if_pos changed]
        exact (put _).moves ((Moves.refl (cmd := false) _).compute)
      · rw [if_neg changed]
        exact put _
  · split
    · exact startRecord_steady ‹_›
    · exact (told (startRecord_steady ‹_›) _).putChanged _

theorem hearKnown_steady (s : State) (n serial : Nat) : Steady s (hearKnown s n serial) := by
  unfold hearKnown
  split
  · exact .refl s
  · dsimp only
    split
    · exact (heardAgain_steady s _).put _
    · exact (heardAgain_steady s _).putChanged _

theorem Steady.copyFrame (h : Steady s t) (k : Target) (p q : Peer) : Steady s (copyFrame t k p q) := by
  unfold Machine.copyFrame
  dsimp only
  split
  · exact (h.put q).moves (entryChanged_moves (cmd := false) (.refl _) k)
  · exact h.putChanged q

theorem takeClaim_steady (s : State) (n serial : Nat) (k : Target) (prio : Nat) :
    Steady s (takeClaim s n serial k prio) := by
  unfold takeClaim
  split
  · exact .refl s
  · dsimp only
    split
    · exact (heardAgain_steady s _).copyFrame _ _ _
    · exact ((heardAgain_steady s _).emit _).copyFrame _ _ _

theorem takeRelease_steady (s : State) (n serial : Nat) (k : Target) : Steady s (takeRelease s n serial k) := by
  unfold takeRelease
  split
  · exact .refl s
  · exact (heardAgain_steady s _).copyFrame _ _ _

theorem applyNotice_steady (s : State) (n : Nat) (k : Notice) : Steady s (applyNotice s n k) := by
  have told {v : State} {c : Prop} [Decidable c] (h : Steady s v) (e : Event) :
      Steady s (if c then v else v.emit e) ∧ Steady s (if c then v.emit e else v) := by
    by_cases hc : c
    · simp only [if_pos hc]
      exact ⟨h, h.emit e⟩
    · simp only [if_neg hc]
      exact ⟨h.emit e, h⟩
  unfold applyNotice
  split
  · exact (Steady.refl s).emit _
  split
  · exact (Steady.refl s).emit _
  · exact (told (told (.refl s) _).1 _).2.moves (changeSlot_moves (.refl _) _ _ _ _)

theorem takeNotice_steady (s : State) (n serial : Nat) (k : Notice) : Steady s (takeNotice s n serial k) := by
  unfold takeNotice
  dsimp only
  split
  · exact putTrack_steady s _
  · refine .trans ?_ (applyNotice_steady _ n k)
    split
    · exact putTrack_steady s _
    · exact (putTrack_steady s _).emit _

theorem offerVersion_steady (s : State) (n serial bay v : Nat) : Steady s (offerVersion s n serial bay v) := by
  unfold offerVersion
  split
  · exact .refl s
  · exact (Steady.refl s).put _

theorem changeLiveness_steady (s : State) (p : Peer) (l : Liveness) (e : Event) : Steady s (changeLiveness s p l e) :=
  ((Steady.refl s).put _).moves (changeLiveness_moves s p l e)

theorem forceClear_steady (s : State) (p : Peer) : Steady s (forceClear s p) :=
  (((Steady.refl s).put _).emit _).moves (copiesChanged_moves (cmd := false) (.refl _))

theorem sayDuplicate_steady (s : State) (serial : Nat) : Steady s (sayDuplicate s serial) := by
  unfold sayDuplicate
  split
  · exact .refl s
  · refine .emit ?_ _
    exact .plain rfl rfl rfl rfl

/-- A received frame is steady where its routing is: evidence of a duplicate number enters FAULT or is reported. -/
theorem receive_steady (f : Frame) {route : State → State} (h : Steady s (route s)) : Steady s (receive s f route) := by
  rcases receive_cases s f route with e | e | ⟨_, _, e⟩ | ⟨_, e⟩ <;> rw [e]
  · exact .refl s
  · exact .plain rfl rfl rfl rfl
  · rcases heardDuplicate_cases s f with ⟨_, e⟩ | ⟨_, _, e⟩ | ⟨_, _, e⟩ <;> rw [e]
    · exact enterFault_steady s _
    · exact sayDuplicate_steady s _
    · exact .refl s
  · exact h

theorem answerJoin_steady (s : State) (n pattern : Nat) : Steady s (answerJoin s n pattern) := by
  unfold answerJoin
  split
  · exact .refl s
  · split <;> exact .plain rfl rfl rfl rfl

theorem confirmJoin_steady (s : State) (pattern joiner : Nat) : Steady s (confirmJoin s pattern joiner) := by
  unfold confirmJoin
  split <;> exact .plain rfl rfl rfl rfl

/-! ## Samples -/

theorem takeLoad_steady (s : State) (raw : Int) (b : Bool) : Steady s (takeLoad s raw b) := by
  have found : Steady s (findCell (keepRaw s raw b)) :=
    Steady.moves (t := keepRaw s raw b) (.plain rfl rfl rfl rfl) (findCell_moves (.refl _))
  unfold takeLoad
  dsimp only
  split
  · exact found
  · exact found.moves (landingWatch_moves (weighSample_moves (.refl _) _ _ _ _) _)

theorem noteExcursion_steady (s : State) (fs : List SampleField) : Steady s (noteExcursion s fs) := by
  unfold noteExcursion
  dsimp only
  split
  · exact ((Steady.refl s).emit (.outOfField fs)).trans (.plain rfl rfl rfl rfl)
  · exact .of_cpt rfl

theorem noteBack_steady (s : State) : Steady s (noteBack s) := by
  unfold noteBack
  split
  · exact (Steady.refl s).emit _
  · exact .refl s

theorem holdSample_steady (s : State) (p : Sample) (k : Nat) : Steady s (holdSample s p k) := .plain rfl rfl rfl rfl

theorem handSample_steady (s : State) : Steady s (handSample s) :=
  (resettleZones_moves (ordersSample_moves (weighPosition_moves (Moves.refl s).compute))).steady

theorem takeSample_steady (s : State) (f : PositionFrame) (g : Grip) : Steady s (takeSample s f g) :=
  (((noteExcursion_steady s (clampedFields f (clampSample s.cpt f g))).trans (noteBack_steady _)).trans
    (holdSample_steady _ _ _)).trans (handSample_steady _)

theorem readPosition_steady (s : State) (bytes : List Byte) : Steady s (readPosition s bytes) := by
  unfold readPosition
  split
  · exact countBadFrame_steady s
  split
  · exact .refl s
  split
  · exact countBadFrame_steady s
  unfold usePosition
  split
  · exact countBadFrame_steady s
  unfold judgeSample
  split
  · exact takeSample_steady s _ _
  · dsimp only
    split
    · exact .of_cpt rfl
    · refine .trans ?_ (takeSample_steady _ _ _)
      exact .of_cpt rfl

theorem goStale_steady (s : State) : Steady s (goStale s) :=
  Steady.moves (t := { s with cpt.staleTold := true }) (.plain rfl rfl rfl rfl)
    (weighStale_moves ((Moves.refl _).emit _).compute)

theorem receivePort_steady (f : CpFrame) (s : State) : Steady s (receivePort f s) := by
  unfold receivePort
  split
  · exact countBadFrame_steady s
  split
  · split
    · exact .refl s
    · exact countBadFrame_steady s
  · unfold bufferFrame
    split <;> exact .of_cpt rfl

end

/-! ## Requests -/

section
variable (s : State) (tag : ReqTag) (r : Request)

theorem serveConfigure_steady : Steady s (serveConfigure s tag r) := by
  unfold serveConfigure
  split
  · split
    · exact answer_steady s _ _ _ _ _
    · exact (answer_steady s _ _ _ _ _).trans (.of_cpt rfl)
  · exact .refl s

theorem servePark_steady : Steady s (servePark s tag r) := by
  unfold servePark
  split
  · exact answer_steady s _ _ _ _ _
  split
  · exact answer_steady s _ _ _ _ _
  · exact (answer_steady s _ _ _ _ _).trans (enterParked_steady _)

theorem serveTruck_steady (bay : Nat) (k : TruckReqKind) : Steady s (serveTruck s tag r bay k) := by
  unfold serveTruck
  split
  · exact answer_steady s _ _ _ _ _
  split
  · exact answer_steady s _ _ _ _ _
  split
  · exact answer_steady s _ _ _ _ _
  split
  · exact answer_steady s _ _ _ _ _
  · refine (answer_steady s tag r .accepted .none .none).trans
      (.trans ?_ ((ask_moves (cmd := false) (.refl _) _ 7 _).hand _).steady)
    exact .plain rfl rfl rfl rfl

theorem serveMapLoad_steady (slot : Nat) (content : Option Content) (coil : Coil) :
    Steady s (serveMapLoad s tag r slot content coil) := by
  unfold serveMapLoad
  split
  · split
    · exact answer_steady s _ _ _ _ _
    split
    · exact answer_steady s _ _ _ _ _
    · exact (answer_steady s _ _ _ _ _).moves (changeByRequest_moves (.refl _) _ _ _ _)
  · exact answer_steady s _ _ _ _ _

theorem serveBlock_steady (slot : Nat) (on : Bool) : Steady s (serveBlock s tag r slot on) := by
  unfold serveBlock
  split
  · dsimp only
    split
    · exact answer_steady s _ _ _ _ _
    · exact (answer_steady s _ _ _ _ _).moves (changeOwn_moves (.refl _) _ _ _ _ _ _)
  · exact answer_steady s _ _ _ _ _

theorem serveForceClear_steady (n : Nat) : Steady s (serveForceClear s tag r n) := by
  unfold serveForceClear
  split
  · exact answer_steady s _ _ _ _ _
  split
  · exact answer_steady s _ _ _ _ _
  · split
    · exact (answer_steady s _ _ _ _ _).trans (forceClear_steady _ _)
    · exact answer_steady s _ _ _ _ _

theorem serveVerifyZero_steady : Steady s (serveVerifyZero s tag r) := by
  unfold serveVerifyZero
  repeat' split
  case isFalse => exact (answer_steady s _ _ _ _ _).moves (testCapture_moves (beginCapture_moves (.refl _) _))
  all_goals exact answer_steady s _ _ _ _ _

theorem serveVerifySpan_steady (img : Image) (mass : Nat) : Steady s (serveVerifySpan s tag r img mass) := by
  unfold serveVerifySpan
  repeat' split
  case isFalse => exact (answer_steady s _ _ _ _ _).trans (.plain rfl rfl rfl rfl)
  all_goals exact answer_steady s _ _ _ _ _

theorem serveSubmit_steady (o : Order) : Steady s (serveSubmit s tag r o) := by
  unfold serveSubmit
  split
  · exact answer_steady s _ _ _ _ _
  split
  · exact answer_steady s _ _ _ _ _
  split
  · exact answer_steady s _ _ _ _ _
  split
  · exact answer_steady s _ _ _ _ _
  split
  · exact answer_steady s _ _ _ _ _
  · refine (answer_steady s tag r .ok .none .none).trans
      (.trans ?_ ((Moves.refl (cmd := false) _).emit _ |>.hand _).steady)
    exact .plain rfl rfl rfl rfl

theorem cancelWaiting_steady (o : Order) : Steady s (cancelWaiting s o) :=
  Steady.moves (t := { s with moc.waiting := s.moc.waiting.filter fun q => q.id != o.id }) (.plain rfl rfl rfl rfl)
    (keepEnded_moves (cmd := false) ((Moves.refl _).emit _) _)

theorem divertCancelled_steady (a : Active) : Steady s (divertCancelled s a) := by
  have dropped := (setActive_moves (cmd := false) (.refl s) (fun a => { a with primaryDropped := true })
    (by exact fun _ k => k)).emit (.cancelDiverted a.ord.id)
  unfold divertCancelled
  dsimp only
  split
  · exact dropped.steady
  split
  · exact (enterDecide_moves (dropDests_moves dropped) _).steady
  · exact dropped.steady

theorem cancelActive_steady (a : Active) : Steady s (cancelActive s tag r a) := by
  unfold cancelActive
  repeat' split
  · exact answer_steady s _ _ _ _ _
  · exact answer_steady s _ _ _ _ _
  · exact (answer_steady s _ _ _ _ _).trans (divertCancelled_steady _ _)
  · exact answer_steady s _ _ _ _ _
  · exact (answer_steady s _ _ _ _ _).moves (endOrder_moves (cmd := false) (.refl _) _)

theorem serveCancel_steady (id : Nat) : Steady s (serveCancel s tag r id) := by
  unfold serveCancel
  split
  · exact cancelActive_steady s tag r _
  split
  · exact (answer_steady s _ _ _ _ _).trans (cancelWaiting_steady _ _)
  · exact answer_steady s _ _ _ _ _

theorem serveRedirect_steady (id : Nat) (d : Dest) : Steady s (serveRedirect s tag r id d) := by
  unfold serveRedirect
  repeat' split
  case isFalse =>
    exact (answer_steady s _ _ _ _ _).moves
      (enterDecide_moves (cmd := false) (setActive_moves (.refl _) _ (by exact fun _ k => k)) _)
  all_goals exact answer_steady s _ _ _ _ _

theorem serveReadSlots_steady : Steady s (serveReadSlots s tag r) := by
  unfold serveReadSlots
  split
  · split
    · exact answer_steady s _ _ _ _ _
    split
    · exact answer_steady s _ _ _ _ _
    dsimp only
    split
    · exact answer_steady s _ _ _ _ _
    · exact (answer_steady s _ _ _ _ _).trans (.of_cpt rfl)
  · exact .refl s

theorem serveReadSlot_steady : Steady s (serveReadSlot s tag r) := by
  unfold serveReadSlot
  split
  · split <;> exact answer_steady s _ _ _ _ _
  · exact .refl s

theorem serveReadPeer_steady : Steady s (serveReadPeer s tag r) := by
  unfold serveReadPeer
  split
  · split <;> exact answer_steady s _ _ _ _ _
  · exact .refl s

theorem serveReadTruck_steady : Steady s (serveReadTruck s tag r) := by
  unfold serveReadTruck
  split
  · split <;> exact answer_steady s _ _ _ _ _
  · exact .refl s

theorem serveReadOrder_steady : Steady s (serveReadOrder s tag r) := by
  unfold serveReadOrder
  split
  · split <;> exact answer_steady s _ _ _ _ _
  · exact .refl s

end

end Sys2Proof.Machine
end

section
/-! The permits outside RUNNING, the image and the slot map, step by step: every command but START and the starts is
steady, and START forms the map of an image whose rows and zones are as R97 and R74 count them. -/

namespace Sys2Proof.Machine

/-! ## The commands, one by one -/

section
variable {s t : State}

theorem request_steady {k : ReqKind} {serve : State → ReqTag → Request → State}
    (h : ∀ (u : State) tag r, Steady u (serve u tag r)) : Steady s (State.finish (takeRequest s k serve)) :=
  (takeRequest_steady h).finish

theorem received_steady (f : Frame) {route : State → State} (h : Steady s (route s)) :
    Steady s (State.finish (receive s f route)) := (receive_steady f h).finish

theorem execRxNotice_steady {n serial : Nat} {k : Notice} (h : execRxNotice n serial k s = .next t) : Steady s t := by
  cases h
  refine received_steady _ ?_
  dsimp only
  split
  · exact hearKnown_steady s n serial
  · exact (hearKnown_steady s n serial).trans (takeNotice_steady _ n serial k)

theorem execRxTruckState_steady {n serial bay version : Nat} {c : TruckContent}
    (h : execRxTruckState n serial bay version c s = .next t) : Steady s t := by
  cases h
  refine received_steady _ ?_
  dsimp only
  split
  · exact hearKnown_steady s n serial
  · exact ((hearKnown_steady s n serial).trans (offerVersion_steady _ n serial bay version)).moves
      (takeTruckState_moves (.refl _) n bay version c)

theorem execProfileDelayExpiry_steady (h : execProfileDelayExpiry s = .next t) : Steady s t := by
  cases h
  split
  · exact .refl s
  · dsimp only
    split
    · refine .trans ?_ (queueProfile_steady _)
      exact .plain rfl rfl rfl rfl
    · exact .plain rfl rfl rfl rfl

theorem execWelcomeDelayExpiry_steady (h : execWelcomeDelayExpiry s = .next t) : Steady s t := by
  cases h
  split
  · exact .refl s
  split
  · exact .refl s
  · dsimp only
    split
    · refine .offer ?_ _
      exact .plain rfl rfl rfl rfl
    · exact .plain rfl rfl rfl rfl

theorem execSlotStreamRecord_steady (h : execSlotStreamRecord s = .next t) : Steady s t := by
  cases h
  repeat' split
  all_goals exact .plain rfl rfl rfl rfl

theorem execOutputRecordSent_steady (h : execOutputRecordSent s = .next t) : Steady s t := by
  unfold execOutputRecordSent sendRecord at h
  cases h
  dsimp only
  repeat' split
  all_goals exact .plain rfl rfl rfl rfl

/-- Every command but START, POWER_ON and RESET_PIN_ASSERT is steady. -/
theorem exec_steady {c : Instr} (h : exec c s = .next t) (h1 : c ≠ .powerOn) (h2 : c ≠ .resetPinAssert)
    (h3 : c ≠ .start) : Steady s t := by
  have moved {n : Nat} {u : State} (m : Moves true (s.reach n) u) : Steady s u := (reach_steady s n).moves m
  cases c
  case powerOn => exact absurd rfl h1
  case resetPinAssert => exact absurd rfl h2
  case start => exact absurd rfl h3
  case resetRelease p =>
    cases h
    refine Steady.finish ?_
    split
    · exact leaveReset_steady s p
    · exact .refl s
  case lineBusy => cases h; exact .plain rfl rfl rfl rfl
  case lineIdle => cases h; exact .plain rfl rfl rfl rfl
  case txWaitExpiry =>
    cases h
    split
    · exact .plain rfl rfl rfl rfl
    · exact .refl s
  case txBitMismatch =>
    cases h
    split
    · exact failAttempt_steady s
    · exact .refl s
  case txFrameEnd =>
    cases h
    split
    · exact frameSent_steady s
    · exact .refl s
  case runwayFrameBad bytes =>
    cases h
    split
    · exact .plain rfl rfl rfl rfl
    · exact .refl s
  case rxJoin n serial pattern x =>
    cases h
    exact received_steady _ ((takeJoin_steady s n serial pattern x).trans (answerJoin_steady _ _ _))
  case rxWelcome n serial pattern joiner =>
    cases h
    exact received_steady _ ((hearKnown_steady s n serial).trans (confirmJoin_steady _ _ _))
  case rxBeacon n serial b => cases h; exact received_steady _ (takeBeacon_steady s n serial b)
  case rxProfile n serial p => cases h; exact received_steady _ (takeProfile_steady s n serial p)
  case rxClaim n serial k prio => cases h; exact received_steady _ (takeClaim_steady s n serial k prio)
  case rxRelease n serial k => cases h; exact received_steady _ (takeRelease_steady s n serial k)
  case rxNotice n serial k => exact execRxNotice_steady h
  case rxTruckState n serial bay version content => exact execRxTruckState_steady h
  case beaconTimerExpiry =>
    cases h
    split
    · exact .refl s
    split
    · exact (reach_steady s _).trans (queueBeacon_steady _)
    · exact .refl s
  case profileTimerExpiry =>
    cases h
    split
    · exact .refl s
    split
    · exact (reach_steady s _).trans (queueProfile_steady _)
    · exact .refl s
  case profileDelayExpiry => exact execProfileDelayExpiry_steady h
  case welcomeDelayExpiry => exact execWelcomeDelayExpiry_steady h
  case joinRepeatExpiry =>
    cases h
    split
    · exact .refl s
    split
    · refine Steady.offer ?_ _
      exact .plain rfl rfl rfl rfl
    · exact .refl s
  case joinTimerExpiry =>
    cases h
    refine Steady.finish ?_
    split
    · exact .refl s
    split
    · exact (reach_steady s _).trans (enterRunning_steady _)
    · exact .refl s
  case resumeTimerExpiry =>
    cases h
    refine Steady.finish ?_
    split
    · exact .refl s
    split
    · exact (reach_steady s _).trans (resumeRunning_steady _)
    · exact .refl s
  case lineTxFail =>
    cases h
    split
    · refine .emit ?_ _
      exact .plain rfl rfl rfl rfl
    · exact .refl s
  case peerStale n =>
    cases h
    refine Steady.finish ?_
    split
    · exact .refl s
    split
    · exact (reach_steady s _).trans (changeLiveness_steady _ _ _ _)
    · exact .refl s
  case peerLost n =>
    cases h
    refine Steady.finish ?_
    split
    · exact .refl s
    split
    · exact (reach_steady s _).trans (changeLiveness_steady _ _ _ _)
    · exact .refl s
  case settleTimerExpiry k =>
    cases h
    refine Steady.finish ?_
    split
    · exact .refl s
    split
    · exact moved (settleClaim_moves (.refl _) _)
    · exact .refl s
  case refreshTimerExpiry =>
    cases h
    split
    · exact (Moves.refl (cmd := true) s).compute.steady
    · exact moved (Moves.refl _).compute
  case requestTimerExpiry bay =>
    cases h
    refine Steady.finish ?_
    split
    · split
      · exact .refl s
      · exact moved (failTruckReq_moves (.refl _) bay _)
    · exact .refl s
  case sessionTimeout =>
    cases h
    refine Steady.finish ?_
    split
    · exact moved (timeoutSession_moves (.refl _) _ _)
    · exact .refl s
  case captureTimerExpiry =>
    cases h
    refine Steady.finish ?_
    split
    · exact moved (completeCapture_moves (.refl _) _ _)
    · exact .refl s
  case loadCellLost =>
    cases h
    refine Steady.finish ?_
    split
    · exact moved (loseCell_moves (.refl _))
    · exact .refl s
  case positionStale =>
    cases h
    refine Steady.finish ?_
    split
    · exact (reach_steady s _).trans (goStale_steady _)
    · exact .refl s
  case orderWaiting =>
    cases h
    split
    · exact .refl s
    split
    · exact moved ((setActive_moves (.refl _) _ (by exact fun _ k => k)).emit _)
    · exact .refl s
  case loadCellSample raw saturated =>
    cases h
    refine Steady.finish ?_
    split
    · exact .refl s
    · exact takeLoad_steady s raw saturated
  case loadCellBadWord =>
    cases h
    split <;> exact .plain rfl rfl rfl rfl
  case cpFrameReceived f =>
    cases h
    split
    · exact .refl s
    · exact receivePort_steady f s
  case positionSample bytes =>
    cases h
    refine Steady.finish ?_
    split
    · exact .refl s
    · exact readPosition_steady s bytes
  case unknownRequestTaken =>
    cases h
    split
    · exact .refl s
    · exact (dropRequest_steady s).trans (queueResponse_steady _ _)
  case configure => cases h; exact request_steady serveConfigure_steady
  case restart p => cases h; exact request_steady fun u tag r => (answer_steady u tag r _ _ _).trans (softReset_steady _ p)
  case park => cases h; exact request_steady servePark_steady
  case unpark => cases h; exact request_steady fun u tag r => (answer_steady u tag r _ _ _).trans (enterResuming_steady _)
  case submitOrder => cases h; exact request_steady fun u tag r => by split; exacts [serveSubmit_steady u tag _ _, .refl u]
  case cancelOrder => cases h; exact request_steady fun u tag r => by split; exacts [serveCancel_steady u tag _ _, .refl u]
  case redirect => cases h; exact request_steady fun u tag r => by split; exacts [serveRedirect_steady u tag _ _ _, .refl u]
  case truckArrive => cases h; exact request_steady fun u tag r => by split; exacts [serveTruck_steady u tag _ _ _, .refl u]
  case truckReady => cases h; exact request_steady fun u tag r => by split; exacts [serveTruck_steady u tag _ _ _, .refl u]
  case truckHold => cases h; exact request_steady fun u tag r => by split; exacts [serveTruck_steady u tag _ _ _, .refl u]
  case truckDepart => cases h; exact request_steady fun u tag r => by split; exacts [serveTruck_steady u tag _ _ _, .refl u]
  case mapLoad => cases h; exact request_steady fun u tag r => by split; exacts [serveMapLoad_steady u tag _ _ _ _, .refl u]
  case slotBlock => cases h; exact request_steady fun u tag r => by split; exacts [serveBlock_steady u tag _ _ _, .refl u]
  case slotUnblock => cases h; exact request_steady fun u tag r => by split; exacts [serveBlock_steady u tag _ _ _, .refl u]
  case claimForceClear => cases h; exact request_steady fun u tag r => by split; exacts [serveForceClear_steady u tag _ _, .refl u]
  case weighVerifyZero => cases h; exact request_steady serveVerifyZero_steady
  case weighVerifySpan =>
    cases h
    exact request_steady fun u tag r => by split; exacts [serveVerifySpan_steady u tag _ _ _, answer_steady u _ _ _ _ _]
  case readStatus => cases h; exact takeRequest_steady fun u tag r => answer_steady u tag r _ _ _
  case readSlot => cases h; exact takeRequest_steady serveReadSlot_steady
  case readSlots => cases h; exact takeRequest_steady serveReadSlots_steady
  case readPeer => cases h; exact takeRequest_steady serveReadPeer_steady
  case readTruck => cases h; exact takeRequest_steady serveReadTruck_steady
  case readOrder => cases h; exact takeRequest_steady serveReadOrder_steady
  case slotStreamRecord => exact execSlotStreamRecord_steady h
  case outputRecordSent => exact execOutputRecordSent_steady h

end

/-! ## START -/

/-- The image of a draft that START validates has at most 40 rows of at most 12 lowers each (R97, R215). -/
theorem imageFail_rowsFit {d : Draft} (h : imageFail d = none) : RowsFit (buildImage d) := by
  have counted {p : Param} (hp : shapeCheck d p = none) :
      inRange (draftVal d .runwayLength) (draftVal d .spanLength) p (draftVal d p) = true := by
    obtain ⟨-, outside⟩ := orElse_eq_none hp
    simpa [firstOutside] using outside
  obtain ⟨shape, -⟩ := orElse_eq_none h
  obtain ⟨-, shape⟩ := orElse_eq_none shape
  obtain ⟨-, shape⟩ := orElse_eq_none shape
  obtain ⟨rows, lanes⟩ := orElse_eq_none shape
  rw [List.findSome?_eq_none_iff] at lanes
  constructor
  · obtain ⟨-, most⟩ := of_decide_eq_true (counted rows)
    simp only [buildImage, List.length_map, upTo, List.length_range, draftRows]
    omega
  · simp only [buildImage, List.mem_map]
    rintro _ ⟨r, hr, rfl⟩
    obtain ⟨-, most⟩ := of_decide_eq_true (counted (lanes r hr))
    simp only [buildRow, List.length_map, upTo, List.length_range, draftLanes]
    omega

/-- The zones of an image from a draft are numbered in turn (R74). -/
theorem buildImage_zonesDistinct (d : Draft) : ZonesDistinct (buildImage d) := by
  have ids : (buildImage d).zones.map (·.id) = upTo (draftZones d) := by
    simp [buildImage, buildZone, Function.comp_def]
  rw [ZonesDistinct, ids, upTo]
  exact List.nodup_range.map fun _ _ h => Nat.succ.inj h

/-- START is steady, or takes an image in CONFIG. -/
theorem execStart_cases {s t : State} (h : execStart s = .next t) :
    Steady s t ∨ s.rlc.nodeState = .config ∧ ∃ v img, t = started v img ∧ RowsFit img ∧ ZonesDistinct img := by
  cases h
  have dropped := dropRequest_steady s
  rcases takeRequest_cases s .start serveStart with e | ⟨_, ⟨resp, e⟩ | ⟨tag, r, e⟩⟩ | ⟨tag, r, _, _, _, accepted, e⟩ <;> rw [e]
  · exact .inl (Steady.refl s).finish
  · exact .inl (dropped.trans (queueResponse_steady _ _)).finish
  · exact .inl (dropped.trans (answer_steady _ _ _ _ _ _)).finish
  · unfold serveStart
    split
    · exact .inl (dropped.trans (answer_steady _ _ _ _ _ _)).finish
    · rename_i valid
      exact .inr ⟨by simpa [acceptedIn] using accepted, _, _, rfl, imageFail_rowsFit valid, buildImage_zonesDistinct _⟩

/-- The map formed at START has one record for each existing slot (R125). -/
theorem started_imageOk {v : State} {img : Image} (rows : RowsFit img) (zones : ZonesDistinct img) :
    ImageOk (started v img) := by
  have frame := started_frame v img
  have image : (started v img).cpt.image = some img := congrArg Cpt.image frame.cpt
  have slots : (started v img).smu.slots = formMap img := congrArg Smu.slots frame.smu
  have node : (started v img).rlc.nodeState = .joining := congrArg Rlc.nodeState frame.rlc
  simp [ImageOk, image, slots, node, rows, zones, formMap, Function.comp_def]

/-! ## Steps -/

theorem step_permitsOk {s t : State} (ok : PermitsOk s) (h : step s = .next t) : PermitsOk t := by
  unfold step at h
  split at h
  · cases h
    exact ok
  · rename_i c rest _
    have blank (cause : StopCause) : PermitsOk (State.blank { s with pending := rest } cause) := fun _ => rfl
    by_cases h1 : c = .powerOn
    · subst h1
      cases h
      exact blank _
    by_cases h2 : c = .resetPinAssert
    · subst h2
      cases h
      exact blank _
    by_cases h3 : c = .start
    · subst h3
      rcases execStart_cases h with steady | ⟨_, v, img, rfl, _⟩
      · exact steady.permits ok
      · exact fun _ => started_permits v img
    · exact (exec_steady h h1 h2 h3).permits ok

/-- A steady command keeps the image and its map, whatever transition of section 1.9 it makes (R214, R125). -/
theorem Steady.imageOk {c : Instr} {s t : State} (h : Steady s t) (ok : ImageOk s)
    (node : t.rlc.nodeState = s.rlc.nodeState ∨ nodeEvent s c s.rlc.nodeState t.rlc.nodeState)
    (h1 : c ≠ .powerOn) (h2 : c ≠ .resetPinAssert) : ImageOk t := by
  obtain ⟨none_held, map⟩ := ok
  unfold ImageOk
  rw [h.image]
  refine ⟨fun outside => ?_, ?_⟩
  · rcases node with same | event
    · exact none_held (same ▸ outside)
    · generalize t.rlc.nodeState = b at outside event
      cases c <;> simp only [nodeEvent] at event
      case powerOn => exact absurd rfl h1
      case resetPinAssert => exact absurd rfl h2
      case resetRelease p => exact none_held (.inl event.1)
      case restart p =>
        by_contra held
        obtain ⟨-, rfl⟩ := event
        rw [if_neg held] at outside
        split at outside <;> simp at outside
      all_goals simp [event] at outside
  · cases image : s.cpt.image with
    | none =>
      rw [image] at map
      have none_left := h.slots
      rw [map, List.map_nil, List.map_eq_nil_iff] at none_left
      exact none_left
    | some img =>
      rw [image] at map
      exact ⟨h.slots.trans map.1, map.2⟩

theorem step_imageOk {s t : State} (ok : ImageOk s) (h : step s = .next t) :
    ImageOk t ∧ ∀ img, s.cpt.image = some img → s.pending.head? ≠ some .powerOn →
      s.pending.head? ≠ some .resetPinAssert → t.cpt.image = some img := by
  unfold step at h
  split at h
  · cases h
    exact ⟨ok, fun img image _ _ => image⟩
  · rename_i c rest waiting
    have kept (steady : Steady { s with pending := rest } t) (h1 : c ≠ .powerOn) (h2 : c ≠ .resetPinAssert) :=
      And.intro (steady.imageOk ok (exec_obeys h).node h1 h2)
        (fun img (image : s.cpt.image = some img) (_ : s.pending.head? ≠ some .powerOn)
          (_ : s.pending.head? ≠ some .resetPinAssert) => steady.image.trans image)
    have blank (cause : StopCause) : ImageOk (State.blank { s with pending := rest } cause) := ⟨fun _ => rfl, rfl⟩
    by_cases h1 : c = .powerOn
    · subst h1
      cases h
      exact ⟨blank _, fun _ _ other => absurd (by rw [waiting]; rfl) other⟩
    by_cases h2 : c = .resetPinAssert
    · subst h2
      cases h
      exact ⟨blank _, fun _ _ _ other => absurd (by rw [waiting]; rfl) other⟩
    by_cases h3 : c = .start
    · subst h3
      rcases execStart_cases h with steady | ⟨config, v, img, rfl, rows, zones⟩
      · exact kept steady (by decide) (by decide)
      · refine ⟨started_imageOk rows zones, fun old image => ?_⟩
        have none_held := ok.1 (.inr config)
        rw [image] at none_held
        cases none_held
    · exact kept (exec_steady h h1 h2 h3) h1 h2

/-- Settles O5: every command but START and the starts is steady, and START takes its image where none is held. -/
theorem stepKeepsZeroPermitsImageAndMap : Obligations.StepKeepsZeroPermitsImageAndMap :=
  ⟨fun _ _ ok h => step_permitsOk ok h, fun _ _ ok h => step_imageOk ok h⟩

end Sys2Proof.Machine
end

section
/-! Travel permits: the integer square root, the order of R69, and the least of the limits (R63). -/

namespace Sys2Proof.Machine

/-! ## The integer square root -/

/-- Each bit keeps the root below the square root and narrows the gap above it. -/
theorem isqrtBits_spec (k n r : Nat) (low : r * r ≤ n) (high : n < (r + 2 ^ k) * (r + 2 ^ k)) :
    isqrtBits k n r * isqrtBits k n r ≤ n ∧ n < (isqrtBits k n r + 1) * (isqrtBits k n r + 1) := by
  induction k generalizing r with
  | zero => exact ⟨low, high⟩
  | succ k ih =>
    unfold isqrtBits
    dsimp only
    split
    · rename_i fits
      refine ih _ fits ?_
      rwa [Nat.add_assoc, ← Nat.two_mul, ← Nat.pow_succ']
    · rename_i exceeds
      exact ih _ low (Nat.lt_of_not_le exceeds)

/-- isqrt(n) is the largest integer whose square does not exceed n. -/
theorem isqrt_spec (n : Nat) : isqrt n * isqrt n ≤ n ∧ n < (isqrt n + 1) * (isqrt n + 1) := by
  refine isqrtBits_spec _ n 0 (Nat.zero_le n) ?_
  calc n < 2 ^ (n.log2 + 1) := Nat.lt_log2_self
    _ ≤ 2 ^ ((n.log2 / 2 + 1) + (n.log2 / 2 + 1)) := Nat.pow_le_pow_right (by decide) (by omega)
    _ = (0 + 2 ^ (n.log2 / 2 + 1)) * (0 + 2 ^ (n.log2 / 2 + 1)) := by rw [Nat.zero_add, Nat.pow_add]

/-! ## The order of R69 -/

theorem causeNumber_eq (c : Cause) : causeNumber c = (Codec.causeCode c, Codec.causeArg c) := by cases c <;> rfl

theorem comesFirst_iff {v w : Int} {c d : Cause} :
    comesFirst v c w d = true ↔ v < w ∨ v = w ∧ NamedFirst c d := by
  simp [comesFirst, NamedFirst, causeNumber_eq]

/-- A value with its cause does not come behind another: it is smaller, or equal and not named after it (R69). -/
def Leads (v : Int) (c : Cause) (w : Int) (d : Cause) : Prop := v < w ∨ v = w ∧ ¬ NamedFirst d c

theorem not_comesFirst_iff {v w : Int} {c d : Cause} : ¬ comesFirst v c w d = true ↔ Leads w d v c := by
  rw [comesFirst_iff, Leads]
  constructor
  · intro h
    rcases lt_trichotomy w v with below | equal | above
    · exact .inl below
    · exact .inr ⟨equal, fun named => h (.inr ⟨equal.symm, named⟩)⟩
    · exact absurd (.inl above) h
  · rintro (below | ⟨equal, unnamed⟩) (above | ⟨_, named⟩)
    · omega
    · omega
    · omega
    · exact unnamed named

theorem Leads.refl (v : Int) (c : Cause) : Leads v c v c := .inr ⟨rfl, fun h => by simp [NamedFirst] at h⟩

theorem Leads.trans {u v w : Int} {a b c : Cause} (h : Leads u a v b) (k : Leads v b w c) : Leads u a w c := by
  unfold Leads NamedFirst at *
  omega

theorem leads_of_comesFirst {v w : Int} {c d : Cause} (h : comesFirst v c w d = true) : Leads v c w d := by
  rw [comesFirst_iff] at h
  unfold Leads NamedFirst at *
  omega

/-! ## The nearest obstacle and the least limit -/

theorem nearest_eq_none {obs : List Obstacle} : nearest obs = none ↔ obs = [] := by
  cases obs with
  | nil => simp [nearest]
  | cons o os =>
    unfold nearest
    split
    · simp
    · split <;> simp

/-- The nearest obstacle is one of the list that leads every other (R63, R69). -/
theorem nearest_leads {obs : List Obstacle} {o : Obstacle} (h : nearest obs = some o) :
    o ∈ obs ∧ ∀ q ∈ obs, Leads o.d o.cause q.d q.cause := by
  induction obs generalizing o with
  | nil => simp [nearest] at h
  | cons a os ih =>
    unfold nearest at h
    split at h
    · rename_i none_behind
      cases h
      rw [nearest_eq_none.mp none_behind]
      simp [Leads.refl]
    · rename_i b some_behind
      obtain ⟨inside, leads⟩ := ih some_behind
      split at h
      · rename_i first
        cases h
        exact ⟨List.mem_cons_of_mem _ inside, List.forall_mem_cons.mpr ⟨leads_of_comesFirst first, leads⟩⟩
      · rename_i first
        cases h
        refine ⟨List.mem_cons_self, List.forall_mem_cons.mpr ⟨.refl _ _, fun q hq => ?_⟩⟩
        exact (not_comesFirst_iff.mp first).trans (leads q hq)

/-- The least limit is one of the limits and leads every other (R63, R69). -/
theorem leastLimit_leads (first : Permit) (rest : List Permit) :
    leastLimit first rest ∈ first :: rest
      ∧ ∀ c ∈ first :: rest, Leads (leastLimit first rest).speed (leastLimit first rest).cause c.speed c.cause := by
  induction rest generalizing first with
  | nil => simp [leastLimit, Leads.refl]
  | cons p rest ih =>
    have step : leastLimit first (p :: rest)
        = leastLimit (if comesFirst p.speed p.cause first.speed first.cause then p else first) rest := rfl
    rw [step]
    split
    · rename_i before
      obtain ⟨inside, leads⟩ := ih p
      refine ⟨List.mem_cons_of_mem _ inside, List.forall_mem_cons.mpr ⟨?_, leads⟩⟩
      exact (leads p List.mem_cons_self).trans (leads_of_comesFirst before)
    · rename_i behind
      obtain ⟨inside, leads⟩ := ih first
      obtain ⟨here, others⟩ := List.forall_mem_cons.mp leads
      refine ⟨?_, List.forall_mem_cons.mpr ⟨here, List.forall_mem_cons.mpr ⟨?_, others⟩⟩⟩
      · rcases List.mem_cons.mp inside with e | e
        · rw [e]
          exact List.mem_cons_self
        · exact List.mem_cons_of_mem _ (List.mem_cons_of_mem _ e)
      · exact here.trans (not_comesFirst_iff.mp behind)

/-! ## Travel permits (R63) -/

theorem stopSpeed_nonneg (dec allow d : Int) : 0 ≤ stopSpeed dec allow d := by
  unfold stopSpeed
  split
  · exact le_rfl
  · exact Int.natCast_nonneg _

/-- The limit of an obstacle is 0 without room ahead, and else lets the crane stop within the room (R63). -/
theorem stopSpeed_sq {dec allow d : Int} (hdec : 0 ≤ dec) (room : 0 < d - allow) :
    stopSpeed dec allow d * stopSpeed dec allow d ≤ 2 * dec * (d - allow) := by
  have positive : 0 ≤ 2 * dec * (d - allow) := by positivity
  rw [stopSpeed, if_neg (by omega), ← Int.toNat_of_nonneg positive]
  exact_mod_cast (isqrt_spec (2 * dec * (d - allow)).toNat).1

/-- What is no faster than the limit of an obstacle stops short of every obstacle behind it. -/
theorem stops_short {dec allow near far v : Int} (hdec : 0 ≤ dec) (h0 : 0 ≤ v) (hv : v ≤ stopSpeed dec allow near)
    (behind : near ≤ far) : (far - allow ≤ 0 → v = 0) ∧ (0 < far - allow → v * v ≤ 2 * dec * (far - allow)) := by
  have zero (h : near - allow ≤ 0) : v = 0 := by
    rw [stopSpeed, if_pos h] at hv
    omega
  refine ⟨fun h => zero (by omega), fun room => ?_⟩
  by_cases near_room : near - allow ≤ 0
  · rw [zero near_room]
    positivity
  · calc v * v ≤ stopSpeed dec allow near * stopSpeed dec allow near := mul_self_le_mul_self h0 hv
      _ ≤ 2 * dec * (near - allow) := stopSpeed_sq hdec (by omega)
      _ ≤ 2 * dec * (far - allow) := mul_le_mul_of_nonneg_left (by omega) (by omega)

/-- Settles O8: the permit leads the limits, and the obstacle it is taken from leads the obstacles. -/
theorem travelPermitIsTheLeastLimit : Obligations.TravelPermitIsTheLeastLimit := by
  refine ⟨isqrt_spec, fun vmax dec allow obs ceilings hvmax hdec some_obs hceil => ?_⟩
  obtain ⟨o, near⟩ := Option.ne_none_iff_exists'.mp (mt nearest_eq_none.mp some_obs)
  obtain ⟨inside, leads⟩ := nearest_leads near
  obtain ⟨taken, least⟩ := leastLimit_leads { speed := stopSpeed dec allow o.d, cause := o.cause }
    ({ speed := vmax, cause := .vmax } :: ceilings)
  have permit : travelPermit vmax dec allow obs ceilings
      = leastLimit { speed := stopSpeed dec allow o.d, cause := o.cause } ({ speed := vmax, cause := .vmax } :: ceilings) := by
    simp only [travelPermit, near]
  intro p v
  rw [← permit] at taken least
  have at_most {x : Int} {c : Cause} (h : Leads v p.cause x c) : v ≤ x := by
    unfold Leads at h
    omega
  obtain ⟨stop, others⟩ := List.forall_mem_cons.mp least
  obtain ⟨own, ceils⟩ := List.forall_mem_cons.mp others
  have nonneg : 0 ≤ v := by
    have limits : ∀ c ∈ ({ speed := stopSpeed dec allow o.d, cause := o.cause } : Permit)
        :: { speed := vmax, cause := .vmax } :: ceilings, 0 ≤ c.speed :=
      List.forall_mem_cons.mpr ⟨stopSpeed_nonneg _ _ _, List.forall_mem_cons.mpr ⟨hvmax, hceil⟩⟩
    exact limits p taken
  have short (q : Obstacle) (hq : q ∈ obs) := by
    have behind : o.d ≤ q.d := by
      rcases leads q hq with below | ⟨equal, _⟩ <;> omega
    exact stops_short hdec nonneg (at_most stop) behind
  refine ⟨nonneg, at_most own, fun c hc => at_most (ceils c hc), fun q hq => (short q hq).1,
    fun q hq => (short q hq).2, o, inside, stopSpeed dec allow o.d, leads, fun h => if_pos h,
    fun h => if_neg (by omega), taken, least⟩

end Sys2Proof.Machine
end

section
/-! The hoist permits (R66, R67). -/

namespace Sys2Proof.Machine

theorem pick_eq (b : ByClass) (c : LoadClass) : b.pick c = if c = .empty then b.empty else b.loaded := by
  cases c <;> rfl

/-- The contact height that R67 reads is that of an order which lowers. -/
theorem loweringContact_eq {m : Moc} {a : Active} (h : m.active = some a) :
    loweringContact m = if a.phase = .pickLower ∨ a.phase = .placeLower then a.contact else none := by
  simp only [loweringContact, h]

/-- Settles O10: the branches of the two tables. -/
theorem hoistPermitsFollowTables : Obligations.HoistPermitsFollowTables := by
  intro s img full z
  have hoist : ({ speed := img.hoistVmax.pick s.wgu.loadClass, cause := .vmax } : Permit) = full := by rw [pick_eq]
  unfold hoistUpPermit hoistDownPermit
  rw [hoist]
  refine ⟨fun high => if_pos high, fun low overload => ?_, fun low other => ?_, fun low => if_pos low, fun high idle => ?_,
    fun a high active => ?_⟩
  · rw [if_neg (by omega), if_pos overload]
  · rw [if_neg (by omega), if_neg other]
  · rw [if_neg (by omega)]
    simp only [loweringContact, idle]
  · rw [if_neg (by omega), loweringContact_eq active]
    refine ⟨fun c lowers contact near => ?_, fun c lowers contact far => ?_, fun up down => ?_⟩
    · rw [if_pos lowers, contact]
      exact if_pos near
    · rw [if_pos lowers, contact]
      exact if_neg (by omega)
    · rw [if_neg (by simp [up, down])]

end Sys2Proof.Machine
end

section
/-! Obstacles and ceilings (R52 to R65), and the tops of columns and rows (R113). -/

namespace Sys2Proof.Machine

/-! ## What bars the way, as sections 3.3 and 3.4 name it -/

/-- An EXCLUSIVE or TRUCK_BAY zone without an own HELD claim (R56). -/
def Shut (s : State) (z : Zone) : Prop :=
  (z.kind = .exclusive ∨ z.kind = .truckBay) ∧ ¬ ∃ k ∈ s.clu.claims, k.target = .zone z.id ∧ k.state = .held

/-- A NO_LOAD zone, with a load, in whose y range the hook is (R57). -/
def BarsGantry (s : State) (z : Zone) : Prop :=
  z.kind = .noLoad ∧ s.wgu.loadClass ≠ .empty ∧ z.y0 ≤ s.sample.y ∧ s.sample.y ≤ z.y1

/-- A NO_LOAD zone, with a load, in whose x range the hook is (R61). -/
def BarsTrolley (s : State) (z : Zone) : Prop :=
  z.kind = .noLoad ∧ s.wgu.loadClass ≠ .empty ∧ z.x0 ≤ s.sample.x ∧ s.sample.x ≤ z.x1

/-- The obstacle at a free distance that a zone is to the gantry (R56, R57, R69). -/
def Wall (s : State) (z : Zone) (d : Int) (b : Obstacle) : Prop :=
  (Shut s z ∧ b = { d := d, cause := .zone z.id }) ∨ (BarsGantry s z ∧ b = { d := d, cause := .noLoad z.id })

/-- The load bottom (R58): an unknown diameter counts as the largest. -/
def bottomOf (s : State) (img : Image) : Int :=
  s.sample.z - img.tongHang
    - if s.wgu.loadClass = .empty then 0
      else match s.moc.active.bind fun a => a.coil.diameter with
        | some d => (d : Int)
        | none => img.dmax

/-- A row that reaches up to the load (R59). -/
def TallRow (s : State) (img : Image) (r : Nat) (w : Row) : Prop :=
  1 ≤ r ∧ img.rows[r - 1]? = some w ∧ bottomOf s img < rowTop img s.smu r + img.clearance

/-- A column that reaches up to the load, in a row over which the hook stands, by its lower slot and its lane (R62). -/
def TallColumn (s : State) (img : Image) (k : Nat) (lane : Int) : Prop :=
  ∃ r w p, 1 ≤ r ∧ img.rows[r - 1]? = some w ∧ |s.sample.x - w.centre| ≤ w.half ∧ 1 ≤ p ∧ w.lanes[p - 1]? = some lane
    ∧ bottomOf s img < columnTop img s.smu r p + img.clearance ∧ k = (r - 1) * 23 + p

/-- A zone under the own footprint (R53). -/
def UnderFootprint (s : State) (img : Image) (z : Zone) : Prop := s.sample.x - img.left ≤ z.x1 ∧ z.x0 ≤ s.sample.x + img.right

section
variable {s : State} {img : Image} {z : Zone} {d : Int} {b : Obstacle}

/-! ## Zones -/

theorem underFootprint_iff : (footprint img s.sample.x).overlaps z.xs = true ↔ UnderFootprint s img z := overlaps_iff _ _

theorem claimHeld_iff {k : Target} : claimHeld s k = true ↔ ∃ c ∈ s.clu.claims, c.target = k ∧ c.state = .held := by
  simp [claimHeld]

theorem claimable_iff {k : ZoneKind} : k.claimable = true ↔ k = .exclusive ∨ k = .truckBay := by
  cases k <;> simp [ZoneKind.claimable]

theorem zoneBars_iff (clear : ¬ UnderFootprint s img z) : zoneBars s img z = true ↔ Shut s z := by
  have apart : (footprint img s.sample.x).overlaps z.xs = false :=
    Bool.eq_false_iff.mpr (mt underFootprint_iff.mp clear)
  rw [zoneBars, apart, Shut, ← claimable_iff, ← claimHeld_iff]
  simp

theorem noLoadBarsX_iff (clear : ¬ UnderFootprint s img z) : noLoadBarsX s img z = true ↔ BarsGantry s z := by
  have apart : (footprint img s.sample.x).overlaps z.xs = false :=
    Bool.eq_false_iff.mpr (mt underFootprint_iff.mp clear)
  simp [noLoadBarsX, apart, BarsGantry, and_assoc]

/-- Ahead of a bumper a zone is an obstacle to the gantry by its kind (R56, R57). -/
theorem wall_iff (clear : ¬ UnderFootprint s img z) :
    ((zoneBars s img z || noLoadBarsX s img z) = true ∧ b = { d := d, cause := zoneCause z }) ↔ Wall s z d b := by
  rw [Bool.or_eq_true, zoneBars_iff clear, noLoadBarsX_iff clear, or_and_right, Wall]
  refine or_congr (and_congr_right fun shut => ?_) (and_congr_right fun bars => ?_)
  · have other : z.kind ≠ .noLoad := by
      rintro same
      simp [Shut, same] at shut
    rw [zoneCause, if_neg other]
  · rw [zoneCause, if_pos bars.1]

theorem noLoadBarsY_iff : noLoadBarsY s z = true ↔ BarsTrolley s z ∧ (s.sample.y < z.y0 ∨ z.y1 < s.sample.y) := by
  simp [noLoadBarsY, BarsTrolley, and_assoc]

/-! ## Rows and columns -/

theorem loadBottom_eq (s : State) (img : Image) : loadBottom s img = bottomOf s img := by
  unfold loadBottom bottomOf
  cases s.wgu.loadClass <;> rfl

theorem rowAt_eq_some {r : Nat} {w : Row} : rowAt img r = some w ↔ 1 ≤ r ∧ img.rows[r - 1]? = some w := by
  unfold rowAt
  split <;> simp [*]

/-- A list made of the rows by number holds what each existing row gives. -/
theorem mem_filterMap_rows {f : Nat → Option Obstacle} {g : Nat → Row → Option Obstacle}
    (absent : ∀ r, rowAt img r = none → f r = none) (present : ∀ r w, rowAt img r = some w → f r = g r w) :
    b ∈ (upTo img.rows.length).filterMap f ↔ ∃ r w, (1 ≤ r ∧ img.rows[r - 1]? = some w) ∧ g r w = some b := by
  simp only [List.mem_filterMap, ← rowAt_eq_some]
  constructor
  · rintro ⟨r, -, given⟩
    cases row : rowAt img r with
    | none => simp [absent r row] at given
    | some w => exact ⟨r, w, row, present r w row ▸ given⟩
  · rintro ⟨r, w, row, given⟩
    obtain ⟨r1, at_r⟩ := rowAt_eq_some.mp row
    obtain ⟨inside, -⟩ := List.getElem?_eq_some_iff.mp at_r
    exact ⟨r, mem_upTo.mpr ⟨r1, by omega⟩, (present r w row).trans given⟩

theorem rowBars_iff {r : Nat} : rowBars s img r = true ↔ bottomOf s img < rowTop img s.smu r + img.clearance := by
  rw [rowBars, decide_eq_true_eq, loadBottom_eq]

theorem laneAt_of_mem {w : Row} {p : Nat} (h : p ∈ upTo w.lanes.length) :
    1 ≤ p ∧ w.lanes[p - 1]? = some ((laneAt w p).getD 0) := by
  obtain ⟨p1, pn⟩ := mem_upTo.mp h
  have inside : p - 1 < w.lanes.length := by omega
  simp [laneAt, p1, List.getElem?_eq_getElem inside]

theorem mem_barringColumns {c : Nat × Int} : c ∈ barringColumns s img ↔ TallColumn s img c.1 c.2 := by
  unfold barringColumns
  rw [List.mem_flatMap]
  constructor
  · rintro ⟨r, -, inside⟩
    split at inside
    · simp at inside
    rename_i w row
    split at inside
    · rename_i stands
      obtain ⟨r1, at_r⟩ := rowAt_eq_some.mp row
      obtain ⟨p, counted, rfl⟩ := List.mem_map.mp inside
      obtain ⟨number, tall⟩ := List.mem_filter.mp counted
      obtain ⟨p1, lane⟩ := laneAt_of_mem number
      rw [decide_eq_true_eq, loadBottom_eq] at tall
      exact ⟨r, w, p, r1, at_r, mag_eq_abs _ ▸ stands, p1, lane, tall, rfl⟩
    · simp at inside
  · rintro ⟨r, w, p, r1, at_r, stands, p1, lane, tall, number⟩
    have row : rowAt img r = some w := rowAt_eq_some.mpr ⟨r1, at_r⟩
    obtain ⟨in_rows, -⟩ := List.getElem?_eq_some_iff.mp at_r
    obtain ⟨in_lanes, -⟩ := List.getElem?_eq_some_iff.mp lane
    have numbered : p ∈ upTo w.lanes.length := mem_upTo.mpr ⟨p1, by omega⟩
    refine ⟨r, mem_upTo.mpr ⟨r1, by omega⟩, ?_⟩
    simp only [row, mag_eq_abs, if_pos stands]
    refine List.mem_map.mpr ⟨p, List.mem_filter.mpr ⟨numbered, ?_⟩, ?_⟩
    · rwa [decide_eq_true_eq, loadBottom_eq]
    · have found := (laneAt_of_mem numbered).2
      rw [lane] at found
      exact Prod.ext number.symm (Option.some.inj found).symm

/-! ## The obstacle lists (R54 to R62) -/

theorem mem_gantryPlus : b ∈ gantryPlusObstacles s img ↔
    (∃ p ∈ s.ptb.peers, s.sample.x ≤ p.x
        ∧ b = { d := (envelope img s.now p).lo - (s.sample.x + img.right) - img.gapPeer, cause := .peer p.n })
      ∨ b = { d := img.runway - (s.sample.x + img.right) - img.gapWall, cause := .runwayEnd }
      ∨ (∃ z ∈ img.zones, s.sample.x + img.right < z.x0 ∧ Wall s z (z.x0 - (s.sample.x + img.right) - img.gapWall) b)
      ∨ ∃ r w, TallRow s img r w ∧ s.sample.x < w.centre
          ∧ b = { d := w.centre - w.half - s.sample.x - img.gapWall, cause := .row r } := by
  simp only [gantryPlusObstacles, List.mem_append, List.mem_singleton, or_assoc]
  refine or_congr ?_ (or_congr Iff.rfl (or_congr ?_ ?_))
  · simp only [plusPeers, List.mem_map, List.mem_filter, decide_eq_true_eq, and_assoc, eq_comm (b := b)]
  · simp only [List.mem_map, List.mem_filter, Bool.and_eq_true, decide_eq_true_eq, and_assoc]
    refine exists_congr fun z => and_congr_right fun _ => ?_
    rw [and_left_comm]
    refine and_congr_right fun ahead => ?_
    rw [eq_comm (b := b), wall_iff]
    unfold UnderFootprint
    omega
  · rw [mem_filterMap_rows (g := fun r w => if rowBars s img r = true ∧ s.sample.x < w.centre then
      some { d := w.centre - w.half - s.sample.x - img.gapWall, cause := .row r } else none)
      (fun r row => by simp only [row]) (fun r w row => by simp only [row])]
    simp only [Option.ite_none_right_eq_some, Option.some.injEq, rowBars_iff, TallRow, and_assoc, eq_comm (b := b)]

theorem mem_gantryMinus : b ∈ gantryMinusObstacles s img ↔
    (∃ p ∈ s.ptb.peers, p.x ≤ s.sample.x
        ∧ b = { d := s.sample.x - img.left - (envelope img s.now p).hi - img.gapPeer, cause := .peer p.n })
      ∨ b = { d := s.sample.x - img.left - img.gapWall, cause := .runwayEnd }
      ∨ (∃ z ∈ img.zones, z.x1 < s.sample.x - img.left ∧ Wall s z (s.sample.x - img.left - z.x1 - img.gapWall) b)
      ∨ ∃ r w, TallRow s img r w ∧ w.centre < s.sample.x
          ∧ b = { d := s.sample.x - (w.centre + w.half) - img.gapWall, cause := .row r } := by
  simp only [gantryMinusObstacles, List.mem_append, List.mem_singleton, or_assoc, sub_zero]
  refine or_congr ?_ (or_congr Iff.rfl (or_congr ?_ ?_))
  · simp only [minusPeers, List.mem_map, List.mem_filter, decide_eq_true_eq, and_assoc, eq_comm (b := b)]
  · simp only [List.mem_map, List.mem_filter, Bool.and_eq_true, decide_eq_true_eq, and_assoc]
    refine exists_congr fun z => and_congr_right fun _ => ?_
    rw [and_left_comm]
    refine and_congr_right fun ahead => ?_
    rw [eq_comm (b := b), wall_iff]
    unfold UnderFootprint
    omega
  · rw [mem_filterMap_rows (g := fun r w => if rowBars s img r = true ∧ w.centre < s.sample.x then
      some { d := s.sample.x - (w.centre + w.half) - img.gapWall, cause := .row r } else none)
      (fun r row => by simp only [row]) (fun r w row => by simp only [row])]
    simp only [Option.ite_none_right_eq_some, Option.some.injEq, rowBars_iff, TallRow, and_assoc, eq_comm (b := b)]

theorem mem_trolleyPlus : b ∈ trolleyPlusObstacles s img ↔
    b = { d := img.span - s.sample.y - img.gapWall, cause := .spanEnd }
      ∨ (∃ z ∈ img.zones, BarsTrolley s z ∧ s.sample.y < z.y0
          ∧ b = { d := z.y0 - s.sample.y - img.gapWall, cause := .noLoad z.id })
      ∨ ∃ k lane, TallColumn s img k lane ∧ s.sample.y < lane
          ∧ b = { d := lane - img.columnHalf - s.sample.y - img.gapWall, cause := .column k } := by
  simp only [trolleyPlusObstacles, List.mem_append, List.mem_singleton, or_assoc, List.mem_map, List.mem_filter,
    Bool.and_eq_true, decide_eq_true_eq, noLoadBarsY_iff, mem_barringColumns, Prod.exists, and_assoc]
  refine or_congr Iff.rfl (or_congr (exists_congr fun z => and_congr_right fun _ => and_congr_right fun _ => ?_) ?_)
  · rw [eq_comm (b := b)]
    exact ⟨fun ⟨_, ahead⟩ => ahead, fun ahead => ⟨.inl ahead.1, ahead⟩⟩
  · simp only [eq_comm (b := b)]

theorem mem_trolleyMinus : b ∈ trolleyMinusObstacles s img ↔
    b = { d := s.sample.y - img.gapWall, cause := .spanEnd }
      ∨ (∃ z ∈ img.zones, BarsTrolley s z ∧ z.y1 < s.sample.y
          ∧ b = { d := s.sample.y - z.y1 - img.gapWall, cause := .noLoad z.id })
      ∨ ∃ k lane, TallColumn s img k lane ∧ lane < s.sample.y
          ∧ b = { d := s.sample.y - (lane + img.columnHalf) - img.gapWall, cause := .column k } := by
  simp only [trolleyMinusObstacles, List.mem_append, List.mem_singleton, or_assoc, List.mem_map, List.mem_filter,
    Bool.and_eq_true, decide_eq_true_eq, noLoadBarsY_iff, mem_barringColumns, Prod.exists, and_assoc, sub_zero]
  refine or_congr Iff.rfl (or_congr (exists_congr fun z => and_congr_right fun _ => and_congr_right fun _ => ?_) ?_)
  · rw [eq_comm (b := b)]
    exact ⟨fun ⟨_, ahead⟩ => ahead, fun ahead => ⟨.inr ahead.1, ahead⟩⟩
  · simp only [eq_comm (b := b)]

/-! ## Ceilings and free distances -/

theorem mem_travelCeilings {p : Permit} : p ∈ travelCeilings s img ↔
    (∃ z ∈ img.zones, z.kind = .slow ∧ UnderFootprint s img z ∧ p = { speed := z.ceiling, cause := .ceiling z.id })
      ∨ (s.wgu.loadClass = .overload ∧ p = { speed := img.creep, cause := .overload }) := by
  simp only [travelCeilings, List.mem_append, List.mem_map, List.mem_filter, Bool.and_eq_true, beq_iff_eq,
    underFootprint_iff, and_assoc, eq_comm (b := p)]
  refine or_congr Iff.rfl ?_
  split <;> simp [*]

theorem mem_conflictCeilings {p : Permit} : p ∈ conflictCeilings s img ↔
    ∃ z ∈ img.zones, z.id ∈ s.clu.conflicts ∧ UnderFootprint s img z ∧ p = { speed := img.creep, cause := .conflict z.id } := by
  simp only [conflictCeilings, List.mem_map, List.mem_filter, Bool.and_eq_true, List.contains_iff_mem,
    underFootprint_iff, and_assoc, eq_comm (b := p)]

/-- A free distance is that of the nearest obstacle (R47). -/
theorem freeOf_nearest {obs : List Obstacle} (h : obs ≠ []) : (∃ b ∈ obs, freeOf obs = b.d) ∧ ∀ b ∈ obs, freeOf obs ≤ b.d := by
  obtain ⟨o, near⟩ := Option.ne_none_iff_exists'.mp (mt nearest_eq_none.mp h)
  obtain ⟨inside, leads⟩ := nearest_leads near
  have free : freeOf obs = o.d := by simp only [freeOf, near]
  rw [free]
  refine ⟨⟨o, inside, rfl⟩, fun b hb => ?_⟩
  rcases leads b hb with below | ⟨equal, _⟩ <;> omega

/-! ## Tops (R113) -/

theorem foldl_max_le {α : Type} (f : α → Int) (l : List α) (a top : Int) :
    l.foldl (fun t x => max t (f x)) a ≤ top ↔ a ≤ top ∧ ∀ x ∈ l, f x ≤ top := by
  induction l generalizing a with
  | nil => simp
  | cons x l ih => rw [List.foldl_cons, ih, max_le_iff, List.forall_mem_cons, and_assoc]

theorem rowTop_le {m : Smu} {r : Nat} {w : Row} {top : Int} (row : rowAt img r = some w) :
    rowTop img m r ≤ top ↔ 0 ≤ top ∧ ∀ p, 1 ≤ p → p ≤ w.lanes.length → columnTop img m r p ≤ top := by
  have tops : columnTops img m r = (upTo w.lanes.length).map (columnTop img m r) := by
    simp only [columnTops, row]
    rfl
  rw [rowTop, tops, foldl_max_le (fun x => x)]
  simp only [List.forall_mem_map, mem_upTo, and_imp]

theorem slotPos_upper {r p : Nat} {up : Bool} (p1 : 1 ≤ p) (most : p ≤ if up then 11 else 12) :
    (slotPos (slotId r up p)).upper = up := by
  cases up <;> simp only [slotPos, slotId, if_true, if_false, Bool.false_eq_true, decide_eq_true_eq,
    decide_eq_false_iff_not] at most ⊢ <;> omega

theorem columnTop_le {m : Smu} {r p : Nat} {w : Row} {v : SlotRec} {top : Int} (row : rowAt img r = some w)
    (p1 : 1 ≤ p) (pn : p ≤ w.lanes.length) (most : w.lanes.length ≤ 12) (lower : slotRec m (slotId r false p) = some v) :
    columnTop img m r p ≤ top ↔ recTop img false v ≤ top
      ∧ ∀ k, (k = p ∨ k + 1 = p) → 1 ≤ k → k + 1 ≤ w.lanes.length →
          recTop img true ((slotRec m (slotId r true k)).getD SlotRec.fresh) ≤ top := by
  have below : slotTop img m (slotId r false p) = recTop img false v := by
    rw [slotTop, slotPos_upper p1 (by simp only [Bool.false_eq_true, if_false]; omega), lower]
    rfl
  have above {k : Nat} (k1 : 1 ≤ k) (kn : k + 1 ≤ w.lanes.length) :
      slotTop img m (slotId r true k) = recTop img true ((slotRec m (slotId r true k)).getD SlotRec.fresh) := by
    rw [slotTop, slotPos_upper k1 (by simp only [if_true]; omega)]
  rw [columnTop, foldl_max_le, below]
  refine and_congr_right fun _ => ?_
  simp only [mem_uppersOver, row, Option.some.injEq]
  constructor
  · exact fun all k hk k1 kn => above k1 kn ▸ all _ ⟨w, k, rfl, hk, k1, kn, rfl⟩
  · rintro all _ ⟨_, k, rfl, hk, k1, kn, rfl⟩
    exact (above k1 kn).symm ▸ all k hk k1 kn

end

/-- Settles O9: the lists of obstacles and ceilings, the permits made of them, and the tops they are judged by. -/
theorem obstaclesAndCeilingsAreCounted : Obligations.ObstaclesAndCeilingsAreCounted := by
  refine ⟨?_, ?_, ?_⟩
  · intro s img
    refine ⟨fun _ => mem_gantryPlus, fun _ => mem_gantryMinus, fun _ => mem_trolleyPlus, fun _ => mem_trolleyMinus,
      _, _, travelCeilings s img, conflictCeilings s img, ceilDiv_spec (by decide), ceilDiv_spec (by decide),
      fun _ => mem_travelCeilings, fun _ => mem_conflictCeilings, ?_⟩
    simp only [computedPermits, pick_eq]
    rfl
  · rintro o _ _ (⟨rfl, rfl⟩ | ⟨rfl, rfl⟩ | ⟨rfl, rfl⟩ | ⟨rfl, rfl⟩) some_obs
    all_goals exact freeOf_nearest some_obs
  · rintro img m r w ⟨-, lanes⟩ r1 at_r
    have row : rowAt img r = some w := rowAt_eq_some.mpr ⟨r1, at_r⟩
    have most := lanes w (List.mem_of_getElem? at_r)
    refine ⟨fun top => rowTop_le row, fun p v p1 pn lower top => ?_⟩
    simpa only [slotId, if_true, Nat.add_assoc, SlotRec.fresh] using columnTop_le (top := top) row p1 pn most lower

end Sys2Proof.Machine
end

section
/-! SUPPORT. A computation of the permit record and its emission (R68, R70 to R72): what it sets, by the image. -/

namespace Sys2Proof.Machine

section
variable {s : State}

/-- The state that a computation emits its record from: the new values stand, and the clashes are reported (R52, R71). -/
def computed (s : State) : State := { (if s.cpt.image.isNone then s else s.reportClashes) with epu := computeEpu s }

theorem compute_eq (out : s.rlc.nodeState ≠ .reset) : s.compute = (computed s).emitRecord := if_neg out

theorem computed_frame (s : State) : (computed s).now = s.now ∧ (computed s).rlc.nodeState = s.rlc.nodeState := by
  have reported : Moves false s s.reportClashes :=
    .foldl (fun t n => (Moves.refl t).ite ((Moves.refl t).emit _)) _ (.refl s)
  unfold computed
  cases s.cpt.image
  · exact ⟨rfl, rfl⟩
  · exact ⟨reported.frame.now, reported.nodeState⟩

theorem emitRecord_record (t : State) :
    t.emitRecord.epu.record = t.epu.record ∧ t.emitRecord.epu.computedAt = t.epu.computedAt := by
  unfold State.emitRecord
  split <;> exact ⟨rfl, rfl⟩

theorem compute_record (out : s.rlc.nodeState ≠ .reset) : s.compute.epu.record = (computeEpu s).record := by
  rw [compute_eq out]
  exact (emitRecord_record _).1

theorem computeEpu_computedAt (s : State) : (computeEpu s).computedAt = s.now := by
  unfold computeEpu
  split <;> rfl

theorem compute_computedAt (out : s.rlc.nodeState ≠ .reset) : s.compute.epu.computedAt = s.now := by
  rw [compute_eq out, (emitRecord_record _).2]
  exact computeEpu_computedAt s

theorem computeEpu_record_none (image : s.cpt.image = none) :
    (computeEpu s).record = { permits := zeroPermits .state, free := none } := by
  simp only [computeEpu, image]

theorem computeEpu_record_some {img : Image} (image : s.cpt.image = some img) :
    (computeEpu s).record
      = { permits := permitsOf s img (obstaclesOf s img), free := some (freeSet (obstaclesOf s img)) } := by
  simp only [computeEpu, image]

theorem computeEpu_emitted (s : State) :
    (computeEpu s).lastEmitted = s.epu.lastEmitted ∧ (computeEpu s).lastEmitAt = s.epu.lastEmitAt := by
  unfold computeEpu
  split <;> exact ⟨rfl, rfl⟩

/-! ## The permits by the node state and the sample (R68) -/

section
variable {img : Image} {o : Obstacles}

theorem permitsOf_outside (h : s.rlc.nodeState ≠ .running) : permitsOf s img o = zeroPermits .state := if_pos h

theorem permitsOf_stale (h : s.rlc.nodeState = .running) (stale : s.sampleStale = true) :
    permitsOf s img o = zeroPermits .staleSample := by
  rw [permitsOf, if_neg (not_not.mpr h), if_pos stale]

theorem permitsOf_running (h : s.rlc.nodeState = .running) (sampled : s.sampleStale = false) :
    permitsOf s img o = computedPermits s img o := by
  rw [permitsOf, if_neg (not_not.mpr h), sampled]
  rfl

end

/-! ## Emission (R72, R203) -/

/-- A PERMIT or TARGET offered stands in the output queue. -/
theorem mem_placeOut (p : OutBody → Bool) (c : Cpt) (stamp : Nat) (b : OutBody) :
    { stamp := stamp, body := b } ∈ (placeOut p c stamp b).out := by
  unfold placeOut
  split
  · rename_i waits
    obtain ⟨r, inside, sort⟩ := List.any_eq_true.mp waits
    exact List.mem_map.mpr ⟨r, inside, if_pos sort⟩
  · exact List.mem_append_right _ (List.mem_singleton_self _)

/-- A record that differs from the last emitted, or comes 50 ms after it, is emitted (R72). -/
theorem emitRecord_emits {t : State} (due : t.epu.lastEmitted ≠ some t.epu.record.permits ∨ t.epu.lastEmitAt + 50 ≤ t.now) :
    t.emitRecord.epu.lastEmitted = some t.epu.record.permits ∧ t.emitRecord.epu.lastEmitAt = t.now
      ∧ { stamp := t.stamp, body := .permit t.rlc.nodeState t.epu.record } ∈ t.emitRecord.cpt.out := by
  have emits : ¬ (t.epu.lastEmitted = some t.epu.record.permits ∧ t.now < t.epu.lastEmitAt + 50) := by
    rintro ⟨same, early⟩
    exact due.elim (fun h => h same) (fun h => by omega)
  rw [State.emitRecord, if_neg emits]
  exact ⟨rfl, rfl, mem_placeOut _ _ _ _⟩

theorem compute_emits (out : s.rlc.nodeState ≠ .reset)
    (due : s.epu.lastEmitted ≠ some s.compute.epu.record.permits ∨ s.epu.lastEmitAt + 50 ≤ s.now) :
    s.compute.epu.lastEmitted = some s.compute.epu.record.permits ∧ s.compute.epu.lastEmitAt = s.now
      ∧ { stamp := s.now % 4294967296, body := .permit s.rlc.nodeState s.compute.epu.record } ∈ s.compute.cpt.out := by
  obtain ⟨now, node⟩ := computed_frame s
  obtain ⟨emitted, at_last⟩ := computeEpu_emitted s
  have record := compute_record out
  rw [record] at due ⊢
  rw [← now, ← node]
  have := emitRecord_emits (t := computed s) (by rwa [now, show (computed s).epu = computeEpu s from rfl, emitted, at_last])
  rw [← compute_eq out] at this
  exact this

end

end Sys2Proof.Machine
end

section
/-! The settle timer (R82, R84) and the refresh timer (R70, R72). -/

namespace Sys2Proof.Machine

section
variable {s : State} {c : OwnClaim} {q : Target}

/-! ## The end of a settle timer -/

theorem claimChanged_claims (s : State) (q : Target) (st : ClaimState) (left : Bool) (hs : List Holder) :
    (claimChanged s q st left hs).clu.claims = s.clu.claims := by
  rw [claimChanged, handChange_eq, emit_clu, compute_clu]

/-- A HELD entry on whose target no peer holds stays as it is (R84). -/
theorem settleDouble_unopposed (alone : holdingPeers s c.target = []) :
    (settleDouble s c).clu.claims = s.clu.claims := by
  unfold settleDouble
  split
  · rfl
  cases target : c.target with
  | zone z =>
    unfold settleZone
    dsimp only
    split
    · rfl
    · rw [if_pos alone, endConflict_claims]
  | slot k =>
    unfold settleSlot
    dsimp only
    rw [alone]
    split <;> rfl
  | other => rfl

/-- An ASKING entry at the end of its settle timer, in the state in which the hand-ons still stand (R82). -/
theorem settleClaim_spec (found : findClaim s c.target = some c) :
    HandOnFrame s (settleClaim s c) ∧ (settleClaim s c).moc = s.moc ∧ (settleClaim s c).tbu = s.tbu
      ∧ (holdingPeers s c.target = [] → (settleClaim s c).clu.claims = (nowHeld s c).clu.claims) := by
  have held : HandOnFrame s (nowHeld s c) := ⟨rfl, rfl, rfl, rfl, rfl, rfl, rfl, rfl, .inl rfl, rfl, rfl, rfl⟩
  have told : Moves false (nowHeld s c) (claimChanged (nowHeld s c) c.target .held false c.holders) :=
    claimChanged_moves (.refl _) _ _ _ _
  obtain ⟨other, differs⟩ := exists_other_target c.target
  rw [settleClaim_eq found]
  refine ⟨held.moves (settleDouble_moves told _), ?_, ?_, fun alone => ?_⟩
  · rw [(settleDouble_beside (c := { c with state := .held }) _ differs).moc, (claimChanged_beside (t := other) _ _ _ _ _).moc]
    rfl
  · rw [settleDouble_tbu, claimChanged_tbu]
    rfl
  · rw [settleDouble_unopposed, claimChanged_claims]
    rwa [holdingPeers, told.ptb]

/-- No peer holds a target where no live entry on it is HELD. -/
theorem holdingPeers_eq_nil
    (h : ∀ p ∈ s.ptb.peers, ∀ e ∈ p.claims, e.target = q → p.liveness ≠ .lost ∧ e.held = false) :
    holdingPeers s q = [] := by
  refine List.eq_nil_iff_forall_not_mem.mpr fun p hp => ?_
  obtain ⟨inside, e, he, target, holds⟩ := mem_holdingPeers.mp hp
  obtain ⟨live, asks⟩ := h p inside e he target
  simp [live, asks] at holds

end

/-- Settles O33: the entry settled at its timer, and the computation that the refresh timer makes. -/
theorem settleAndRefreshTimers : Obligations.SettleAndRefreshTimers := by
  refine ⟨fun s t c running found asking => ?_, fun s out => ?_⟩
  · obtain rfl := findClaim_target found
    obtain ⟨frame, moc, tbu, claims⟩ := settleClaim_spec (s := s.reach (c.askedAt + 300)) found
    refine ⟨_, ?_, frame, moc, tbu, fun alone => ?_⟩
    · change execSettleTimerExpiry c.target s = _
      simp only [execSettleTimerExpiry, found, running, asking, and_self, if_true]
    · rw [claims (holdingPeers_eq_nil alone)]
      simp only [nowHeld, putClaim_clu, reach_clu, beq_iff_eq]
  · intro r
    have outside : r.rlc.nodeState ≠ .reset := out
    refine ⟨r.compute, ?_, (Moves.refl r).compute.frame, compute_clu r, compute_tbu r, compute_moc r, ?_, compute_rlc r,
      compute_wgu r, fun image => ?_, fun img image => ?_, fun due => ?_⟩
    · change execRefreshTimerExpiry s = _
      rw [execRefreshTimerExpiry, if_neg out]
      rfl
    · rw [compute_now, compute_computedAt outside]
    · rw [compute_record outside, computeEpu_record_none (s := r) image]
    · rw [compute_record outside, computeEpu_record_some (s := r) image]
      exact ⟨rfl, permitsOf_outside (s := r), permitsOf_stale (s := r), permitsOf_running (s := r)⟩
    · rw [compute_now] at due ⊢
      exact compute_emits outside due

end Sys2Proof.Machine
end

section
/-! SUPPORT. The weighing unit's own operations: what they leave as it was, and what they make of the weigh state where no
capture can begin (R142, R144, R145). -/

namespace Sys2Proof.Machine

/-- What `t` differs from `s` in lies in the weighing unit, but for what hand-ons too may change. -/
def Weighed (s t : State) : Prop := HandOnFrame { s with wgu := t.wgu } t

section
variable {s t u : State}

theorem HandOnFrame.weighed (h : HandOnFrame s t) : Weighed s t := by
  obtain ⟨h1, h2, h3, h4, h5, h6, h7, -, -, h10, h11, h12⟩ := h
  exact ⟨h1, h2, h3, h4, h5, h6, h7, rfl, .inl rfl, h10, h11, h12⟩

theorem Weighed.refl (s : State) : Weighed s s := HandOnFrame.refl s

theorem Weighed.of_wgu (s : State) (w : Wgu) : Weighed s { s with wgu := w } := HandOnFrame.refl _

theorem Weighed.trans (h : Weighed s t) (k : Weighed t u) : Weighed s u := by
  obtain ⟨h1, h2, h3, h4, h5, h6, h7, -, -, h10, h11, h12⟩ := h
  have same : HandOnFrame { s with wgu := u.wgu } { t with wgu := u.wgu } :=
    ⟨h1, h2, h3, h4, h5, h6, h7, rfl, .inl rfl, h10, h11, h12⟩
  exact same.trans k

theorem Weighed.moves (h : Weighed s t) (k : Moves false t u) : Weighed s u := h.trans k.frame.weighed

/-! ## The operations -/

theorem testCapture_weighed (s : State) : Weighed s (testCapture s) := by
  unfold testCapture beginCapture
  dsimp only
  split
  · exact (Weighed.of_wgu s { s.wgu with
      mark := captureConditions s, capture := some { kind := .auto, startedAt := s.now, count := 0, sum := 0 } }).moves
      ((Moves.refl _).emit _)
  · exact .of_wgu s { s.wgu with mark := captureConditions s }

theorem weighChanged_weighed (s : State) : Weighed s (weighChanged s) :=
  ((Weighed.refl s).moves ((Moves.refl s).emit _)).trans (testCapture_weighed _)

theorem endSession_weighed (s : State) (img : Image) (ss : Session) (st : WeighStatus) (w : Option Nat) :
    Weighed s (endSession s img ss st w) := by
  have ended := Weighed.of_wgu s { s.wgu with session := none, last := some (resultOf img ss.kind st w) }
  unfold endSession
  dsimp only
  refine Weighed.moves (ended.trans ?_) ((Moves.refl _).emit _)
  split
  · exact (Weighed.refl _).moves ((Moves.refl _).hand _)
  · split
    · exact .refl _
    · exact (Weighed.of_wgu _ _).trans (weighChanged_weighed _)

theorem endOrderSession_weighed (s : State) : Weighed s (endOrderSession s) := by
  unfold endOrderSession
  split
  · split
    · exact endSession_weighed s _ _ _ _
    · exact .refl s
  · exact .refl s

theorem endAnySession_weighed (s : State) : Weighed s (endAnySession s) := by
  unfold endAnySession
  split
  · exact endSession_weighed s _ _ _ _
  · exact .refl s

theorem abandonCapture_weighed (s : State) (why : AbandonReason) : Weighed s (abandonCapture s why) := by
  unfold abandonCapture
  split
  · exact .refl s
  · rename_i c _
    have told : Weighed s (weighChanged (State.emit { s with wgu.capture := none } (.captureAbandoned c.kind why))) :=
      (Weighed.of_wgu s { s.wgu with capture := none }).trans
        (((Weighed.refl _).moves ((Moves.refl _).emit _)).trans (weighChanged_weighed _))
    dsimp only
    split
    · exact told
    · exact told.trans (endOrderSession_weighed _)

theorem weighStale_weighed (s : State) : Weighed s (weighStale s) :=
  (abandonCapture_weighed s _).trans (testCapture_weighed _)

theorem classChanged_weighed (s : State) (old : LoadClass) : Weighed s (classChanged s old) := by
  have told : Weighed s (State.compute (s.emit (.loadClass s.wgu.loadClass))) :=
    (Weighed.refl s).moves ((Moves.refl s).emit _).compute
  unfold classChanged
  dsimp only
  split
  · exact .refl s
  generalize State.compute (s.emit (.loadClass s.wgu.loadClass)) = v at told
  have abandoned : Weighed s (if (autoRuns s.wgu && s.wgu.loadClass != LoadClass.empty) = true then
      abandonCapture v .loadClass else v) := by
    split
    · exact told.trans (abandonCapture_weighed _ _)
    · exact told
  have tested := abandoned.trans (testCapture_weighed _)
  split
  · exact tested.moves (clearUntracked_moves (.refl _))
  · exact tested

theorem loseCell_weighed (s : State) : Weighed s (loseCell s) := by
  have locked := Weighed.of_wgu s { s.wgu with base := .locked .sensor, capture := none }
  unfold loseCell
  dsimp only
  refine ((Weighed.trans ?_ (endAnySession_weighed _)).trans ((Weighed.of_wgu _ _).trans (classChanged_weighed _ _))).trans
    (weighChanged_weighed _)
  split
  · exact locked.moves ((Moves.refl _).emit _)
  · exact locked

/-! ## No capture begins (R144) -/

/-- Where a capture condition fails, a test of the conditions clears the mark and nothing else. -/
theorem testCapture_fails (h : captureConditions s = false) : testCapture s = { s with wgu.mark := false } := by
  simp only [testCapture, h, Bool.false_and, Bool.false_eq_true, if_false]

theorem captureConditions_locked (h : s.wgu.base = .locked .sensor) : captureConditions s = false := by
  simp [captureConditions, h]

theorem captureConditions_stale (h : s.sampleStale = true) : captureConditions s = false := by
  simp [captureConditions, h]

/-! ## The load cell lost (R127) -/

/-- With weighing locked by its sensor a session's end is its result alone (R139, R149). -/
theorem endSession_locked (locked : s.wgu.base = .locked .sensor) (img : Image) (ss : Session) (st : WeighStatus)
    (w : Option Nat) : (endSession s img ss st w).wgu
      = { s.wgu with session := none, last := some (resultOf img ss.kind st w) } := by
  unfold endSession
  cases ss.kind with
  | order _ _ _ => rfl
  | span mass =>
    simp only [locked, if_true]
    rfl

/-- No session is open, and the last result is NO_RESULT where one was (R140). -/
structure SessionsEnded (s t : State) : Prop where
  wgu : t.wgu = { s.wgu with session := none, last := t.wgu.last }
  idle : s.wgu.session = none → t.wgu.last = s.wgu.last
  ended : ∀ ss, s.wgu.session = some ss → ∃ r, t.wgu.last = some r ∧ r.status = .noResult ∧ r.kind = ss.kind

theorem endAnySession_ended (locked : s.wgu.base = .locked .sensor)
    (able : s.wgu.session = none ∨ s.cpt.image ≠ none) : SessionsEnded s (endAnySession s) := by
  cases session : s.wgu.session with
  | none =>
    have same : endAnySession s = s := by simp only [endAnySession, session]
    rw [same]
    exact ⟨by rw [← session], fun _ => rfl, fun _ other => absurd (session.symm.trans other) nofun⟩
  | some ss =>
    obtain ⟨img, image⟩ := Option.ne_none_iff_exists'.mp (able.resolve_left (by simp [session]))
    have ends : endAnySession s = endSession s img ss .noResult none := by simp only [endAnySession, session, image]
    have wgu := endSession_locked locked img ss .noResult none
    rw [ends]
    refine ⟨by rw [wgu], fun other => absurd (session.symm.trans other) nofun, fun _ same => ?_⟩
    rw [session] at same
    cases same
    exact ⟨_, by rw [wgu], rfl, rfl⟩

/-- A load class set to LOADED while weighing is locked: handed on, with at most the mark cleared (R133). -/
theorem classChanged_locked (locked : s.wgu.base = .locked .sensor) (still : s.wgu.capture = none)
    (loaded : s.wgu.loadClass = .loaded) (old : LoadClass) : ∃ m, (classChanged s old).wgu = { s.wgu with mark := m } := by
  have same : (State.compute (s.emit (.loadClass s.wgu.loadClass))).wgu = s.wgu := compute_wgu _
  have quiet : ¬ (autoRuns s.wgu && s.wgu.loadClass != .empty) = true := by simp [autoRuns, still]
  unfold classChanged
  dsimp only
  rw [if_neg quiet]
  split
  · exact ⟨_, rfl⟩
  · rw [if_neg (by rw [loaded]; decide),
      testCapture_fails (captureConditions_locked (by rw [same, locked]))]
    exact ⟨false, congrArg (fun w : Wgu => { w with mark := false }) same⟩

theorem weighChanged_locked (locked : s.wgu.base = .locked .sensor) : (weighChanged s).wgu = { s.wgu with mark := false } := by
  rw [weighChanged, testCapture_fails (captureConditions_locked (by exact locked))]
  rfl

/-- The state as the load cell is lost, with its capture abandoned and its session still open (R127). -/
def cellLocked (s : State) : State :=
  let t : State := { s with wgu.base := .locked .sensor, wgu.capture := none }
  match s.wgu.capture.map (·.kind) with
  | some k => t.emit (.captureAbandoned k .sensor)
  | none => t

theorem cellLocked_spec (s : State) : (cellLocked s).wgu = { s.wgu with base := .locked .sensor, capture := none }
    ∧ (cellLocked s).cpt.image = s.cpt.image := by
  unfold cellLocked
  dsimp only
  split
  · exact ⟨rfl, emit_image _ _⟩
  · exact ⟨rfl, rfl⟩

theorem loseCell_eq (s : State) : loseCell s = weighChanged (classChanged
    { endAnySession (cellLocked s) with wgu := { (endAnySession (cellLocked s)).wgu with
      window := [], overCount := 0, loadClass := .loaded } } (endAnySession (cellLocked s)).wgu.loadClass) := rfl

/-- The weighing unit once the load cell is lost: LOCKED, with no capture, no session, class LOADED (R127). -/
theorem loseCell_wgu (able : s.wgu.session = none ∨ s.cpt.image ≠ none) :
    (loseCell s).wgu = { s.wgu with base := .locked .sensor, capture := none, session := none, loadClass := .loaded,
                                    window := [], overCount := 0, mark := false, last := (loseCell s).wgu.last }
      ∧ (s.wgu.session = none → (loseCell s).wgu.last = s.wgu.last)
      ∧ ∀ ss, s.wgu.session = some ss → ∃ r, (loseCell s).wgu.last = some r ∧ r.status = .noResult ∧ r.kind = ss.kind := by
  obtain ⟨locked, image⟩ := cellLocked_spec s
  obtain ⟨wgu, idle, ended⟩ := endAnySession_ended (s := cellLocked s) (by rw [locked]) (by rwa [locked, image])
  rw [loseCell_eq]
  generalize endAnySession (cellLocked s) = v at wgu idle ended
  rw [locked] at wgu idle ended
  obtain ⟨m, changed⟩ := classChanged_locked
    (s := { v with wgu := { v.wgu with window := [], overCount := 0, loadClass := .loaded } })
    (by rw [wgu]) (by rw [wgu]) rfl v.wgu.loadClass
  rw [weighChanged_locked (by rw [changed, wgu]), changed]
  exact ⟨by rw [wgu], idle, ended⟩

/-! ## The own sample stale (R144, R145) -/

theorem endOrderSession_keeps (s : State) : (endOrderSession s).wgu.base = s.wgu.base
    ∧ (endOrderSession s).wgu.capture = s.wgu.capture := by
  unfold endOrderSession
  split
  · split
    · rename_i ss img _ _ order
      unfold endSession
      cases kind : ss.kind with
      | order _ _ _ => exact ⟨rfl, rfl⟩
      | span _ => simp [isOrder, kind] at order
    · exact ⟨rfl, rfl⟩
  · exact ⟨rfl, rfl⟩

theorem HandOnFrame.sampleStale (h : HandOnFrame s t) : t.sampleStale = s.sampleStale := by
  rw [State.sampleStale, h.cpt, h.now]
  rfl

theorem Weighed.sampleStale (h : Weighed s t) : t.sampleStale = s.sampleStale :=
  HandOnFrame.sampleStale (s := { s with wgu := t.wgu }) h

/-- With a stale sample no capture goes on, and the weigh state is the one before it (R145). -/
theorem abandonCapture_stale (stale : s.sampleStale = true) (why : AbandonReason) :
    (abandonCapture s why).wgu.base = s.wgu.base ∧ (abandonCapture s why).wgu.capture = none := by
  unfold abandonCapture
  split
  · exact ⟨rfl, ‹_›⟩
  · rename_i c _
    have told : Weighed s ((State.emit { s with wgu.capture := none } (.captureAbandoned c.kind why))) :=
      (Weighed.of_wgu s { s.wgu with capture := none }).moves ((Moves.refl _).emit _)
    have again : Weighed s (State.emit (State.emit { s with wgu.capture := none } (.captureAbandoned c.kind why))
        (.weighState (.base s.wgu.base))) := told.moves ((Moves.refl _).emit _)
    have changed : weighChanged (State.emit { s with wgu.capture := none } (.captureAbandoned c.kind why))
        = { State.emit (State.emit { s with wgu.capture := none } (.captureAbandoned c.kind why))
              (.weighState (.base s.wgu.base)) with wgu := { s.wgu with capture := none, mark := false } } :=
      testCapture_fails (captureConditions_stale (again.sampleStale.trans stale))
    dsimp only
    rw [changed]
    split
    · exact ⟨rfl, rfl⟩
    · exact endOrderSession_keeps _

theorem weighStale_wgu (stale : s.sampleStale = true) :
    (weighStale s).wgu.base = s.wgu.base ∧ (weighStale s).wgu.capture = none := by
  rw [weighStale, testCapture_fails (captureConditions_stale ((abandonCapture_weighed s _).sampleStale.trans stale))]
  exact abandonCapture_stale stale _

/-! ## Permits while the sample is stale (R68) -/

theorem Moves.sampleStale {b : Bool} (h : Moves b s t) : t.sampleStale = s.sampleStale :=
  h.same (fun s => s.sampleStale) fun s t m => by
    cases m with
    | emit _ e => exact (Move.emit (b := false) s e).frame.sampleStale
    | target _ o p x y z => exact (Move.target (b := false) s o p x y z).frame.sampleStale
    | compute => exact (Move.compute (b := false) s).frame.sampleStale
    | offer _ i => exact (Move.offer (b := false) s i).frame.sampleStale
    | notice => rw [State.issueNotice, State.sampleStale, offer_cpt, offer_now, State.sampleStale]
    | changeWindow _ bay => rw [State.openChangeWindow, State.sampleStale, offer_cpt, offer_now, State.sampleStale]
    | _ => rfl

/-- In RUNNING a computation with a stale sample gives six permits of 0 with cause STALE_SAMPLE (R68). -/
theorem compute_stale (running : s.rlc.nodeState = .running) (stale : s.sampleStale = true) (image : s.cpt.image ≠ none) :
    s.compute.epu.record.permits = zeroPermits .staleSample := by
  obtain ⟨img, image⟩ := Option.ne_none_iff_exists'.mp image
  rw [compute_record (by rw [running]; decide), computeEpu_record_some image]
  exact permitsOf_stale running stale

/-- They stay so while the sample stays stale. -/
theorem Moves.stalePermits {b : Bool} (h : Moves b s t) (running : s.rlc.nodeState = .running)
    (stale : s.sampleStale = true) (image : s.cpt.image ≠ none)
    (permits : s.epu.record.permits = zeroPermits .staleSample) :
    t.epu.record.permits = zeroPermits .staleSample := by
  induction h with
  | refl => exact permits
  | @tail v w before m ih =>
    cases m with
    | compute => exact compute_stale (before.nodeState.trans running) (before.sampleStale.trans stale) (before.image ▸ image)
    | offer => rw [offer_epu]; exact ih
    | notice => rw [State.issueNotice, offer_epu]; exact ih
    | changeWindow => rw [State.openChangeWindow, offer_epu]; exact ih
    | _ => exact ih

end

end Sys2Proof.Machine
end

section
/-! The load cell lost (R127), and the own sample stale (R210). -/

namespace Sys2Proof.Machine

section
variable {s : State}

/-- Hand-ons leave a weighing unit without a session as it is. -/
theorem finish_wgu (h : s.wgu.session = none) : (State.finish s).wgu = s.wgu := by
  obtain ⟨-, -, -, -, -, -, -, wgu, session, -, -, -⟩ := finish_frame s
  have none_open : (State.finish s).wgu.session = s.wgu.session := session.elim id fun closed => closed.1.trans h.symm
  rw [wgu, none_open]

/-- The state in which the own sample is told stale, before the blocks hear of it (R210). -/
def toldStale (s : State) : State := { s.reach (s.cpt.takenAt + 100) with cpt.staleTold := true }

theorem toldStale_stale (s : State) : (toldStale s).sampleStale = true := by
  have late : s.cpt.takenAt + 100 ≤ max s.now (s.cpt.takenAt + 100) := le_max_right _ _
  simp [State.sampleStale, toldStale, late]

end

/-- Settles O36: no capture can begin while weighing is locked or the sample stale. -/
theorem lossOfLoadCellAndSample : Obligations.LossOfLoadCellAndSample := by
  refine ⟨fun s out sensed able => ?_, fun s out held told => ?_⟩
  · let r := s.reach (s.lcp.since + 50)
    obtain ⟨wgu, idle, ended⟩ := loseCell_wgu (s := r) able
    have kept : (State.finish (loseCell r)).wgu = (loseCell r).wgu := finish_wgu (by rw [wgu])
    refine ⟨State.finish (loseCell r), ?_, ?_, ?_, ?_, ?_⟩
    · change execLoadCellLost s = _
      have found : cellLost s.wgu = false := by simpa [cellLost] using sensed
      rw [execLoadCellLost, if_pos ⟨out, found⟩]
    · exact (loseCell_weighed r).moves (finish_moves _)
    · rw [kept]
      exact wgu
    · rw [kept]
      exact idle
    · rw [kept]
      exact ended
  · let b := State.compute ((toldStale s).emit .positionStale)
    have before : Moves false (toldStale s) b := ((Moves.refl _).emit _).compute
    have stale : b.sampleStale = true := before.sampleStale.trans (toldStale_stale s)
    have weighed : Weighed (toldStale s) (State.finish (weighStale b)) :=
      (before.frame.weighed.trans (weighStale_weighed b)).moves (finish_moves _)
    have kept := (finish_frame (weighStale b)).wgu
    obtain ⟨base, capture⟩ := weighStale_wgu stale
    refine ⟨State.finish (weighStale b), ?_, weighed, ?_, ?_, ?_, fun running image => ?_⟩
    · change execPositionStale s = _
      have due : (s.cpt.held.isSome && !s.cpt.staleTold && s.rlc.nodeState != .reset) = true := by
        simp [Option.isSome_iff_ne_none, held, told, out]
      rw [execPositionStale, if_pos due]
      rfl
    · exact weighed.sampleStale.trans (toldStale_stale s)
    · rw [kept]
      exact capture
    · rw [kept]
      exact base.trans (congrArg Wgu.base (compute_wgu _))
    · have after : Moves true b (State.finish (weighStale b)) := (weighStale_moves (.refl b)).trans (finish_moves _).mono
      have node : b.rlc.nodeState = .running := before.nodeState.trans running
      have image : b.cpt.image ≠ none := before.image ▸ image
      exact after.stalePermits node stale image
        (compute_stale (by exact running) (((Moves.refl (cmd := false) _).emit _).sampleStale.trans (toldStale_stale s))
          (by rwa [emit_image]))

end Sys2Proof.Machine
end

section
/-! Ranks of claims (R79, R92) and of waiting orders (R176). -/

namespace Sys2Proof.Machine

theorem mem_entriesOn {p : Peer} {t : Target} {e : CopyEntry} : e ∈ entriesOn p t ↔ e ∈ p.claims ∧ e.target = t := by
  rw [entriesOn, List.mem_filter, beq_iff_eq]

theorem ranksAbove_iff {own prio : Nat} {p : Peer} {e : CopyEntry} : ranksAbove own prio p e = true ↔
    (p.liveness = .lost ∨ e.held = true) ∨ prio < e.prio ∨ (e.prio = prio ∧ p.serial < own) := by
  simp only [ranksAbove, takenHeld, Bool.or_eq_true, Bool.and_eq_true, beq_iff_eq, decide_eq_true_eq, or_assoc]

theorem betterClaim_iff {s : State} {t : Target} {prio : Nat} : betterClaim s t prio = true ↔
    ∃ p ∈ s.ptb.peers, ∃ e ∈ p.claims, e.target = t
      ∧ ((p.liveness = .lost ∨ e.held = true) ∨ prio < e.prio ∨ (e.prio = prio ∧ p.serial < s.serial)) := by
  simp only [betterClaim, List.any_eq_true, mem_entriesOn, ranksAbove_iff, and_assoc]

theorem outranksHeld_iff {s : State} {t : Target} {prio : Nat} {p : Peer} : outranksHeld s t prio p = true ↔
    ∃ e ∈ p.claims, e.target = t ∧ (prio < e.prio ∨ (e.prio = prio ∧ p.serial < s.serial)) := by
  simp only [outranksHeld, List.any_eq_true, mem_entriesOn, Bool.or_eq_true, Bool.and_eq_true, beq_iff_eq,
    decide_eq_true_eq, and_assoc]

/-- An order stands ahead of the first waiting one of a lower priority. -/
theorem insertOrder_eq (o : Order) (l : List Order) : insertOrder o l =
    l.takeWhile (fun q => decide (o.prio ≤ q.prio)) ++ o :: l.dropWhile (fun q => decide (o.prio ≤ q.prio)) := by
  induction l with
  | nil => rfl
  | cons q qs ih =>
    by_cases lower : q.prio < o.prio
    · have ends : decide (o.prio ≤ q.prio) = false := decide_eq_false (by omega)
      simp only [insertOrder, if_pos lower, List.takeWhile_cons, List.dropWhile_cons, ends]
      rfl
    · have stays : decide (o.prio ≤ q.prio) = true := decide_eq_true (by omega)
      simp only [insertOrder, if_neg lower, ih, List.takeWhile_cons, List.dropWhile_cons, stays, if_true,
        List.cons_append]

theorem mem_insertOrder {o q : Order} {l : List Order} : q ∈ insertOrder o l ↔ q = o ∨ q ∈ l := by
  rw [insertOrder_eq, List.mem_append, List.mem_cons, or_left_comm, ← List.mem_append, List.takeWhile_append_dropWhile]

/-- A list by falling priority stays so with an order put into it. -/
theorem insertOrder_sorted {o : Order} {l : List Order} (h : l.Pairwise fun a b => b.prio ≤ a.prio) :
    (insertOrder o l).Pairwise fun a b => b.prio ≤ a.prio := by
  induction l with
  | nil => exact List.pairwise_singleton _ _
  | cons q qs ih =>
    obtain ⟨first, rest⟩ := List.pairwise_cons.mp h
    unfold insertOrder
    split
    · rename_i lower
      refine List.pairwise_cons.mpr ⟨fun b hb => ?_, h⟩
      rcases List.mem_cons.mp hb with rfl | hb
      · exact lower.le
      · exact (first b hb).trans lower.le
    · rename_i higher
      refine List.pairwise_cons.mpr ⟨fun b hb => ?_, ih rest⟩
      rcases mem_insertOrder.mp hb with rfl | hb
      · exact not_lt.mp higher
      · exact first b hb

/-- Settles O12: the two ranks read off their tests, and the place of an order by induction on the waiting ones. -/
theorem claimsAndOrdersRankByPriority : Obligations.ClaimsAndOrdersRankByPriority :=
  ⟨⟨fun _ _ _ => betterClaim_iff, fun _ _ _ _ => outranksHeld_iff⟩, fun o l => ⟨insertOrder_eq o l, insertOrder_sorted⟩⟩

end Sys2Proof.Machine
end

section
/-! START's checks (R215, R75, R98) as a table of conditions with the parameter and the check each one names. -/

namespace Sys2Proof.Machine

/-! ## Checks in a row -/

theorem FirstHolds.append {α : Type} {ans mid other : α} {rows more : List (Prop × α)} (h : FirstHolds ans rows mid)
    (k : ans = mid → FirstHolds ans more other) : FirstHolds ans (rows ++ more) other := by
  induction rows with
  | nil => exact k h
  | cons row rows ih =>
    obtain ⟨here, there⟩ := h
    exact ⟨here, fun stays => ih (there stays)⟩

/-- A check finds what a table names: the answer of the first row that applies, and nothing where none does. -/
def Finds (rows : List (Prop × ImageFail)) (f : ImageFail) : Prop :=
  ∀ other : ImageFail, FirstHolds (f.orElse fun _ => other) rows other

section
variable {rows more : List (Prop × ImageFail)} {f : ImageFail} {g : Unit → ImageFail}

theorem Finds.firstHolds (h : Finds rows f) : FirstHolds f rows none := by
  have := h none
  cases f <;> exact this

theorem finds_nil : Finds [] none := fun _ => rfl

/-- One check behind another: it is read where the first finds nothing. -/
theorem Finds.orElse (h : Finds rows f) (k : f = none → Finds more (g ())) : Finds (rows ++ more) (f.orElse g) := by
  intro other
  cases f with
  | none => exact (h ((g ()).orElse fun _ => other)).append fun _ => k rfl other
  | some x => exact FirstHolds.append (mid := none) (h none) nofun

/-- The last check of a row. -/
theorem Finds.last (h : Finds rows f) : Finds (rows ++ []) f := by rwa [List.append_nil]

theorem finds_findSome {α : Type} {l : List α} {table : α → List (Prop × ImageFail)} {check : α → ImageFail}
    (h : ∀ a ∈ l, Finds (table a) (check a)) : Finds (l.flatMap table) (l.findSome? check) := by
  induction l with
  | nil => exact finds_nil
  | cons a l ih =>
    have step : (a :: l).findSome? check = (check a).orElse fun _ => l.findSome? check := by
      rw [List.findSome?_cons]
      cases check a <;> rfl
    rw [List.flatMap_cons, step]
    exact (h a List.mem_cons_self).orElse fun _ => ih fun b hb => h b (List.mem_cons_of_mem _ hb)

theorem finds_demand {fails : Prop} {ok : Bool} {p : Param} {c : ImageCheck} (h : fails ↔ ok = false) :
    Finds [(fails, some (p, c))] (demand ok p c) := by
  intro other
  cases ok with
  | false => exact ⟨fun _ => rfl, fun holds => absurd (h.mpr rfl) holds⟩
  | true => exact ⟨fun failed => absurd (h.mp failed) Bool.noConfusion, fun _ => rfl⟩

/-- The first of the parameters that fails a test is the one that a row for each names. -/
theorem finds_first {α : Type} {l : List α} {name : α → Param} {bad : Param → Bool} {fails : α → Prop} {c : ImageCheck}
    (h : ∀ a ∈ l, fails a ↔ bad (name a) = true) :
    Finds (l.map fun a => (fails a, some (name a, c))) (((l.map name).find? bad).map fun p => (p, c)) := by
  have one : ((l.map name).find? bad).map (fun p => (p, c))
      = l.findSome? fun a => demand (!bad (name a)) (name a) c := by
    induction l with
    | nil => rfl
    | cons a l ih =>
      rw [List.map_cons, List.find?_cons, List.findSome?_cons, ← ih fun b hb => h b (List.mem_cons_of_mem _ hb)]
      cases bad (name a) <;> rfl
  rw [one, ← List.flatMap_singleton' (l.map _), List.flatMap_map]
  refine finds_findSome fun a ha => finds_demand ((h a ha).trans ?_)
  rw [Bool.not_eq_false']

end

/-! ## Values held and values in range (R213, R215) -/

section
variable {d : Draft} {ps qs : List Param} {c : ImageCheck}

theorem firstMissing_append : firstMissing d (ps ++ qs) = (firstMissing d ps).orElse fun _ => firstMissing d qs := by
  simp only [firstMissing, List.find?_append]
  cases ps.find? fun p => (draftGet d p).isNone <;> rfl

theorem firstOutside_append :
    firstOutside d c (ps ++ qs) = (firstOutside d c ps).orElse fun _ => firstOutside d c qs := by
  simp only [firstOutside, List.find?_append]
  cases ps.find? fun p => !inRange (draftVal d .runwayLength) (draftVal d .spanLength) p (draftVal d p) <;> rfl

/-- The row of START's table that demands a value (R215). -/
def missingRow (d : Draft) (p : Param) : Prop × ImageFail := (draftGet d p = none, some (p, .missing))

/-- The row of START's table that demands a value within two bounds (R215). -/
def outsideRow (d : Draft) (c : ImageCheck) (q : Param × Int × Int) : Prop × ImageFail :=
  (draftVal d q.1 < q.2.1 ∨ q.2.2 < draftVal d q.1, some (q.1, c))

theorem finds_firstMissing : Finds (ps.map (missingRow d)) (firstMissing d ps) := by
  have all := finds_first (l := ps) (name := id) (bad := fun p => (draftGet d p).isNone) (c := .missing)
    fun p _ => Option.isNone_iff_eq_none.symm
  rwa [List.map_id] at all

/-- The bounds of a row are the range of its parameter. -/
def Bounds (d : Draft) (q : Param × Int × Int) : Prop :=
  inRange (draftVal d .runwayLength) (draftVal d .spanLength) q.1 (draftVal d q.1)
    = decide (q.2.1 ≤ draftVal d q.1 ∧ draftVal d q.1 ≤ q.2.2)

theorem finds_firstOutside {table : List (Param × Int × Int)} (h : ∀ q ∈ table, Bounds d q) :
    Finds (table.map (outsideRow d c)) (firstOutside d c (table.map (·.1))) := by
  refine finds_first fun q hq => ?_
  rw [h q hq, Bool.not_eq_true', decide_eq_false_iff_not]
  omega

end

/-! ## Zone kinds (R74; log entry 17) -/

section
variable {d : Draft} {z : Nat}

/-- The code of a zone kind as the value of its parameter. -/
def kindCode : ZoneKind → Int
  | .exclusive => 0
  | .truckBay => 1
  | .slow => 2
  | .noLoad => 3

theorem zoneKindOf_eq_some {v : Int} {k : ZoneKind} : zoneKindOf v = some k ↔ v = kindCode k := by
  constructor
  · unfold zoneKindOf
    split <;> intro h <;> cases h <;> rfl
  · rintro rfl
    cases k <;> rfl

theorem zoneKindOf_isSome (v : Int) : (zoneKindOf v).isSome = decide (0 ≤ v ∧ v ≤ 3) := by
  rw [Bool.eq_iff_iff, Option.isSome_iff_exists, decide_eq_true_iff]
  simp only [zoneKindOf_eq_some]
  constructor
  · rintro ⟨k, rfl⟩
    cases k <;> decide
  · intro ⟨least, most⟩
    rcases (by omega : v = 0 ∨ v = 1 ∨ v = 2 ∨ v = 3) with e | e | e | e
    · exact ⟨.exclusive, e⟩
    · exact ⟨.truckBay, e⟩
    · exact ⟨.slow, e⟩
    · exact ⟨.noLoad, e⟩

theorem draftKind_of_code {k : ZoneKind} (h : draftVal d (.zoneKind z) = kindCode k) : draftKind d z = k := by
  rw [draftKind, zoneKindOf_eq_some.mpr h]
  rfl

theorem draftKind_of_uncoded (h : ¬(0 ≤ draftVal d (.zoneKind z) ∧ draftVal d (.zoneKind z) ≤ 3)) :
    draftKind d z = .exclusive := by
  have none_coded : zoneKindOf (draftVal d (.zoneKind z)) = none := by
    rw [← Option.not_isSome_iff_eq_none, zoneKindOf_isSome, decide_eq_true_iff]
    exact h
  rw [draftKind, none_coded]
  rfl

/-- A kind other than EXCLUSIVE, which an unlisted code is taken as, stands by its code alone. -/
theorem draftKind_eq_iff {k : ZoneKind} (hk : k ≠ .exclusive) :
    draftKind d z = k ↔ draftVal d (.zoneKind z) = kindCode k := by
  refine ⟨fun h => ?_, draftKind_of_code⟩
  unfold draftKind at h
  cases coded : zoneKindOf (draftVal d (.zoneKind z)) with
  | none => exact absurd (by rw [← h, coded]; rfl) hk
  | some j =>
    rw [coded] at h
    exact zoneKindOf_eq_some.mp (coded.trans (congrArg some h))

/-- The kinds of a draft's zones are coded 0 to 3 (log entry 17). -/
def KindsCoded (d : Draft) : Prop :=
  ∀ z ∈ upTo (draftZones d), 0 ≤ draftVal d (.zoneKind z) ∧ draftVal d (.zoneKind z) ≤ 3

/-- A zone of a draft is a claim target by its code (R74). -/
def Claimed (d : Draft) (z : Nat) : Prop := draftVal d (.zoneKind z) = 0 ∨ draftVal d (.zoneKind z) = 1

theorem claimable_draftKind (coded : KindsCoded d) (hz : z ∈ upTo (draftZones d)) :
    (draftKind d z).claimable = true ↔ Claimed d z := by
  have listed : (zoneKindOf (draftVal d (.zoneKind z))).isSome = true := by
    rw [zoneKindOf_isSome, decide_eq_true_iff]
    exact coded z hz
  obtain ⟨k, hk⟩ := Option.isSome_iff_exists.mp listed
  have code := zoneKindOf_eq_some.mp hk
  rw [Claimed, draftKind_of_code code, code]
  cases k <;> decide

end

/-! ## The zone checks (R75) -/

/-- The rows of one zone's checks, as R75 lists them. -/
def zoneRows (d : Draft) (z : Nat) : List (Prop × ImageFail) :=
  let v := draftVal d
  let run := v .runwayLength
  let span := v .spanLength
  let x0 := v (.zoneXStart z)
  let x1 := v (.zoneXEnd z)
  [ (x0 < 0 ∨ run < x0, some (.zoneXStart z, .zone)),
    (x1 ≤ x0 ∨ run < x1, some (.zoneXEnd z, .zone)),
    (v (.zoneKind z) = 3 ∧ (v (.zoneYStart z) < 0 ∨ span < v (.zoneYStart z)), some (.zoneYStart z, .zone)),
    (v (.zoneKind z) = 3 ∧ (v (.zoneYEnd z) ≤ v (.zoneYStart z) ∨ span < v (.zoneYEnd z)), some (.zoneYEnd z, .zone)),
    (v (.zoneKind z) = 2 ∧ (v (.zoneCeiling z) < 50 ∨ 4000 < v (.zoneCeiling z)), some (.zoneCeiling z, .zone)),
    (v (.zoneKind z) = 1 ∧ (v (.zoneBay z) < 1 ∨ 4 < v (.zoneBay z)), some (.zoneBay z, .zone)),
    (v (.zoneKind z) = 1 ∧ (∃ k, 1 ≤ k ∧ k < z ∧ v (.zoneKind k) = 1 ∧ v (.zoneBay k) = v (.zoneBay z)),
      some (.zoneBay z, .zone)),
    (Claimed d z ∧ (∃ k, 1 ≤ k ∧ k < z ∧ Claimed d k ∧ v (.zoneXStart k) ≤ x1 ∧ x0 ≤ v (.zoneXEnd k)),
      some (.zoneXStart z, .zone)) ]

section
variable {d : Draft} {z : Nat}

theorem mem_upTo_pred {k : Nat} : k ∈ upTo (z - 1) ↔ 1 ≤ k ∧ k < z := by
  rw [mem_upTo]
  omega

theorem bayTaken_iff : bayTaken d z = true ↔
    ∃ k, 1 ≤ k ∧ k < z ∧ draftVal d (.zoneKind k) = 1 ∧ draftVal d (.zoneBay k) = draftVal d (.zoneBay z) := by
  simp only [bayTaken, List.any_eq_true, mem_upTo_pred, Bool.and_eq_true, beq_iff_eq, and_assoc,
    draftKind_eq_iff (show ZoneKind.truckBay ≠ .exclusive by decide), kindCode]

theorem overlapsEarlier_iff (coded : KindsCoded d) (hz : z ∈ upTo (draftZones d)) : overlapsEarlier d z = true ↔
    ∃ k, 1 ≤ k ∧ k < z ∧ Claimed d k ∧ draftVal d (.zoneXStart k) ≤ draftVal d (.zoneXEnd z)
      ∧ draftVal d (.zoneXStart z) ≤ draftVal d (.zoneXEnd k) := by
  have earlier {k : Nat} (h1 : 1 ≤ k) (hk : k < z) : (draftKind d k).claimable = true ↔ Claimed d k := by
    rw [mem_upTo] at hz
    exact claimable_draftKind coded (mem_upTo.mpr ⟨h1, by omega⟩)
  simp only [overlapsEarlier, List.any_eq_true, mem_upTo_pred, Bool.and_eq_true, decide_eq_true_iff, and_assoc]
  refine exists_congr fun k => and_congr_right fun h1 => and_congr_right fun hk => ?_
  rw [earlier h1 hk]

/-- A demand made of one kind of zone alone. -/
theorem kindDemand_iff {k : ZoneKind} (hk : k ≠ .exclusive) {ok : Bool} {fails : Prop} (h : fails ↔ ok = false) :
    draftVal d (.zoneKind z) = kindCode k ∧ fails ↔ (draftKind d z != k || ok) = false := by
  rw [Bool.or_eq_false_iff, bne_eq_false_iff_eq, draftKind_eq_iff hk, h]

theorem finds_zoneFail (coded : KindsCoded d) (hz : z ∈ upTo (draftZones d)) : Finds (zoneRows d z) (zoneFail d z) := by
  have within (a b c : Int) : a < b ∨ c < a ↔ decide (b ≤ a ∧ a ≤ c) = false := by
    rw [decide_eq_false_iff_not]
    omega
  have between (a b c : Int) : b ≤ a ∨ c < b ↔ decide (a < b ∧ b ≤ c) = false := by
    rw [decide_eq_false_iff_not]
    omega
  refine (finds_demand (within _ _ _)).orElse fun _ => (finds_demand (between _ _ _)).orElse fun _ =>
    (finds_demand (kindDemand_iff (k := .noLoad) (by decide) (within _ _ _))).orElse fun _ =>
    (finds_demand (kindDemand_iff (k := .noLoad) (by decide) (between _ _ _))).orElse fun _ =>
    (finds_demand (kindDemand_iff (k := .slow) (by decide) (within _ _ _))).orElse fun _ =>
    (finds_demand (kindDemand_iff (k := .truckBay) (by decide) (within _ _ _))).orElse fun _ =>
    (finds_demand (kindDemand_iff (k := .truckBay) (by decide) ?_)).orElse fun _ => finds_demand ?_
  · rw [Bool.not_eq_false', bayTaken_iff]
  · rw [Bool.or_eq_false_iff, Bool.not_eq_false', Bool.not_eq_false', claimable_draftKind coded hz,
      overlapsEarlier_iff coded hz]

end
end Sys2Proof.Machine
end

section
/-! START's checks (R213, R215, R98) by the parameter table: the shape, what is missing, the ranges and the geometry. -/

namespace Sys2Proof.Machine

section
variable {d : Draft}

/-! ## The values that shape the required set (R215) -/

/-- The rows of a value that shapes the required set: tested for a value, then for its range. -/
def shapeRows (d : Draft) (p : Param) (lo hi : Int) : List (Prop × ImageFail) :=
  [missingRow d p, outsideRow d .range (p, lo, hi)]

theorem finds_shapeCheck {p : Param} {lo hi : Int} (h : Bounds d (p, lo, hi)) :
    Finds (shapeRows d p lo hi) (shapeCheck d p) :=
  (finds_firstMissing (ps := [p])).orElse fun _ =>
    finds_firstOutside (table := [(p, lo, hi)]) fun q hq => by rwa [List.mem_singleton.mp hq]

/-- What START knows of a draft whose shape passes: its counts and kinds are held and in range (R215). -/
structure Shaped (d : Draft) : Prop where
  coded : KindsCoded d
  zoneCount : firstMissing d [.zoneCount] = none
  kinds : firstMissing d ((upTo (draftZones d)).map .zoneKind) = none
  rowCount : firstMissing d [.rowCount] = none
  lowers : firstMissing d ((upTo (draftRows d)).map .lowerCount) = none

theorem firstMissing_eq_none {ps : List Param} : firstMissing d ps = none ↔ ∀ p ∈ ps, firstMissing d [p] = none := by
  induction ps with
  | nil => simp [firstMissing]
  | cons p ps ih =>
    rw [← List.singleton_append, firstMissing_append, List.forall_mem_append, ← ih]
    cases h : firstMissing d [p] <;> simp [h, Option.orElse]

theorem shaped_of_shapeFail (h : shapeFail d = none) : Shaped d := by
  have held {p : Param} (hp : shapeCheck d p = none) : firstMissing d [p] = none := (orElse_eq_none hp).1
  obtain ⟨zones, h⟩ := orElse_eq_none h
  obtain ⟨kinds, h⟩ := orElse_eq_none h
  obtain ⟨rows, lowers⟩ := orElse_eq_none h
  rw [List.findSome?_eq_none_iff] at kinds lowers
  refine ⟨fun z hz => ?_, held zones, ?_, held rows, ?_⟩
  · obtain ⟨-, inside⟩ := orElse_eq_none (kinds z hz)
    have coded : (zoneKindOf (draftVal d (.zoneKind z))).isSome = true :=
      Option.isSome_iff_ne_none.mpr (by simpa [firstOutside, inRange] using inside)
    rwa [zoneKindOf_isSome, decide_eq_true_iff] at coded
  · refine firstMissing_eq_none.mpr fun p hp => ?_
    obtain ⟨z, hz, rfl⟩ := List.mem_map.mp hp
    exact held (kinds z hz)
  · refine firstMissing_eq_none.mpr fun p hp => ?_
    obtain ⟨r, hr, rfl⟩ := List.mem_map.mp hp
    exact held (lowers r hr)

/-- The rows of the values that shape the required set, in their order (R215). -/
def shapeTable (d : Draft) : List (Prop × ImageFail) :=
  List.flatten [shapeRows d .zoneCount 0 16, (upTo (draftZones d)).flatMap (fun z => shapeRows d (.zoneKind z) 0 3),
    shapeRows d .rowCount 1 40, (upTo (draftRows d)).flatMap fun r => shapeRows d (.lowerCount r) 2 12]

theorem finds_shapeFail : Finds (shapeTable d) (shapeFail d) :=
  (finds_shapeCheck (show Bounds d (.zoneCount, 0, 16) from rfl)).orElse fun _ =>
    (finds_findSome fun z _ =>
      finds_shapeCheck (show Bounds d (.zoneKind z, 0, 3) from zoneKindOf_isSome _)).orElse fun _ =>
    (finds_shapeCheck (show Bounds d (.rowCount, 1, 40) from rfl)).orElse fun _ =>
    (finds_findSome fun r _ => finds_shapeCheck (show Bounds d (.lowerCount r, 2, 12) from rfl)).last

/-! ## The parameter table with its ranges (R213, R97, 6.1) -/

/-- The head of the parameter table, with the ranges. -/
def headTable : List (Param × Int × Int) :=
  [ (.runwayLength, 20000, 250000), (.spanLength, 5000, 60000), (.leftExtent, 1000, 20000),
    (.rightExtent, 1000, 20000), (.gantryVmax false, 100, 4000), (.gantryVmax true, 100, 4000),
    (.gantryDec false, 50, 1000), (.gantryDec true, 50, 1000), (.trolleyVmax false, 100, 4000),
    (.trolleyVmax true, 100, 4000), (.trolleyDec false, 50, 1000), (.trolleyDec true, 50, 1000),
    (.hoistVmax false, 100, 4000), (.hoistVmax true, 100, 4000), (.reaction, 0, 1000), (.creep, 50, 1000),
    (.gapPeer, 500, 10000), (.gapWall, 0, 5000), (.clearance, 0, 2000), (.tongHang, 0, 5000), (.zMin, 0, 10000),
    (.zMax, 2000, 30000), (.travelHeight, 0, 30000), (.unknownLeft, 1000, 20000), (.unknownRight, 1000, 20000),
    (.unknownVmax, 100, 4000), (.unknownDec, 50, 1000), (.unknownReaction, 0, 1000) ]

/-- The scalar parameters of the store geometry, with the ranges. -/
def storeTable : List (Param × Int × Int) :=
  [ (.saddleHeight, 0, 2000), (.upperSeat, 300, 3000), (.dmax, 600, 3000), (.saddleMax, 600, 3000),
    (.columnHalf, 100, 2000), (.tierTolerance, 0, 500), (.upperOversize, 0, 500), (.widthTolerance, 0, 500),
    (.upperRatio, 10, 150), (.upperPenalty, 0, 1000) ]

/-- The weighing parameters ahead of the division, with the ranges. -/
def scaleTable : List (Param × Int × Int) :=
  [ (.scaleSpan, 1, 65535), (.calibratedZero, -8388608, 8388607), (.zeroWindow, 0, 1000000), (.tare, 0, 10000) ]

/-- The weighing parameters behind the division, with the ranges. -/
def weighTable : List (Param × Int × Int) :=
  [ (.ratedCapacity, 1000, 60000), (.toleranceKg, 0, 5000), (.tolerancePm, 0, 200) ]

/-- Every lane of every row of a draft, by row and number. -/
def laneIndices (d : Draft) : List (Nat × Nat) :=
  (upTo (draftRows d)).flatMap fun r => (upTo (draftLanes d r)).map fun p => (r, p)

theorem draftLaneParams_eq : draftLaneParams d = (laneIndices d).map fun q => .laneY q.1 q.2 := by
  simp only [draftLaneParams, laneIndices, List.map_flatMap, List.map_map, Function.comp_def]

/-- The store geometry with its ranges, as check 1 of R98 walks it. -/
def sizedTable (d : Draft) : List (Param × Int × Int) :=
  List.flatten [ (upTo (draftRows d)).map fun r => (.rowCentre r, 0, draftVal d .runwayLength),
    (upTo (draftRows d)).map fun r => (.rowHalf r, 500, 5000),
    (laneIndices d).map fun q => (.laneY q.1 q.2, 0, draftVal d .spanLength), storeTable ]

theorem bounds_head : ∀ q ∈ headTable, Bounds d q := by
  intro q hq
  fin_cases hq <;> rfl

theorem bounds_store : ∀ q ∈ storeTable, Bounds d q := by
  intro q hq
  fin_cases hq <;> rfl

theorem bounds_scale : ∀ q ∈ scaleTable, Bounds d q := by
  intro q hq
  fin_cases hq <;> rfl

theorem bounds_weigh : ∀ q ∈ weighTable, Bounds d q := by
  intro q hq
  fin_cases hq <;> rfl

theorem bounds_sized : ∀ q ∈ sizedTable d, Bounds d q := by
  simp only [sizedTable, List.flatten_cons, List.forall_mem_append, List.forall_mem_map]
  exact ⟨fun _ _ => rfl, fun _ _ => rfl, fun _ _ => rfl, bounds_store, nofun⟩

/-! ## What is required (R213, R215) -/

/-- The zones of a draft whose kind has a code, by their numbers. -/
def zonesCoded (d : Draft) (k : Int) : List Nat := (upTo (draftZones d)).filter fun z => draftVal d (.zoneKind z) == k

theorem zonesOfKind_eq {k : ZoneKind} (hk : k ≠ .exclusive) : zonesOfKind d k = zonesCoded d (kindCode k) := by
  refine List.filter_congr fun z _ => ?_
  rw [Bool.eq_iff_iff, beq_iff_eq, beq_iff_eq, draftKind_eq_iff hk]

/-- The required parameters behind the shape, in the order of the parameter table. -/
def requiredBehindShape (d : Draft) : List Param :=
  let zs := upTo (draftZones d)
  let rs := upTo (draftRows d)
  List.flatten [ headTable.map (·.1), zs.map .zoneXStart, zs.map .zoneXEnd, (zonesCoded d 3).map .zoneYStart,
    (zonesCoded d 3).map .zoneYEnd, (zonesCoded d 2).map .zoneCeiling, (zonesCoded d 1).map .zoneBay,
    storeTable.map (·.1), rs.map .rowCentre, rs.map .rowHalf, (laneIndices d).map (fun q => .laneY q.1 q.2), scaleTable.map (·.1), [.division], weighTable.map (·.1) ]

/-- A parameter of the shape is held, and is looked for in vain among what is missing. -/
theorem firstMissing_held {ps qs : List Param} (h : firstMissing d ps = none) :
    firstMissing d (ps ++ qs) = firstMissing d qs := by
  rw [firstMissing_append, h]
  rfl

theorem firstMissing_congr {ps qs rs : List Param} (h : firstMissing d qs = firstMissing d rs) :
    firstMissing d (ps ++ qs) = firstMissing d (ps ++ rs) := by
  rw [firstMissing_append, h, firstMissing_append]

theorem firstMissing_required (shaped : Shaped d) :
    firstMissing d (required d) = firstMissing d (requiredBehindShape d) := by
  have noLoad := zonesOfKind_eq (d := d) (k := .noLoad) (by decide)
  have slow := zonesOfKind_eq (d := d) (k := .slow) (by decide)
  have truckBay := zonesOfKind_eq (d := d) (k := .truckBay) (by decide)
  simp only [required, requiredBehindShape, List.flatten_cons, List.append_assoc, draftLaneParams_eq, noLoad, slow,
    truckBay]
  refine firstMissing_congr (ps := headParams) ?_
  rw [firstMissing_held shaped.zoneCount, firstMissing_held shaped.kinds]
  iterate 6 refine firstMissing_congr ?_
  rw [firstMissing_held shaped.rowCount]
  iterate 3 refine firstMissing_congr ?_
  exact firstMissing_held shaped.lowers

/-! ## The ranges outside zones and store (R215) -/

theorem finds_division : Finds [(draftVal d .division ≠ 10 ∧ draftVal d .division ≠ 20 ∧ draftVal d .division ≠ 50,
    some (.division, .range))] (firstOutside d .range [.division]) := by
  have one : firstOutside d .range [.division] = demand (inRange (draftVal d .runwayLength) (draftVal d .spanLength)
      .division (draftVal d .division)) .division .range := by
    rw [firstOutside, List.find?_singleton, demand]
    cases inRange (draftVal d .runwayLength) (draftVal d .spanLength) .division (draftVal d .division) <;> rfl
  rw [one]
  refine finds_demand ?_
  simp only [inRange, Bool.or_eq_false_iff, beq_eq_false_iff_ne, and_assoc]

/-- The rows of the ranges outside zones and store. -/
def rangeRows (d : Draft) : List (Prop × ImageFail) :=
  List.flatten [ headTable.map (outsideRow d .range), scaleTable.map (outsideRow d .range),
    [(draftVal d .division ≠ 10 ∧ draftVal d .division ≠ 20 ∧ draftVal d .division ≠ 50, some (.division, .range))],
    weighTable.map (outsideRow d .range) ]

theorem finds_ranges : Finds (rangeRows d) (firstOutside d .range (headParams ++ weighParams)) := by
  have split : headParams ++ weighParams
      = headTable.map (·.1) ++ (scaleTable.map (·.1) ++ ([.division] ++ weighTable.map (·.1))) := rfl
  rw [split, firstOutside_append, firstOutside_append, firstOutside_append]
  exact (finds_firstOutside bounds_head).orElse fun _ => (finds_firstOutside bounds_scale).orElse fun _ =>
    finds_division.orElse fun _ => (finds_firstOutside bounds_weigh).last

/-! ## The geometry checks (R98) -/

/-- The rows of the seven geometry checks, in their order. -/
def geometryRows (d : Draft) : List (Prop × ImageFail) :=
  let v := draftVal d
  let run := v .runwayLength
  let span := v .spanLength
  let rs := upTo (draftRows d)
  let half := v .columnHalf
  List.flatten [ (sizedTable d).map (outsideRow d (.geometry 1)),
    [(v .dmax < v .saddleMax, some (.saddleMax, .geometry 2))],
    rs.map fun r => (v (.rowCentre r) - v (.rowHalf r) < 0 ∨ run < v (.rowCentre r) + v (.rowHalf r),
      some (.rowCentre r, .geometry 3)),
    rs.map fun r => (2 ≤ r ∧ v (.rowCentre r) - v (.rowHalf r) ≤ v (.rowCentre (r - 1)) + v (.rowHalf (r - 1)),
      some (.rowCentre r, .geometry 4)),
    (laneIndices d).map fun q => (v (.laneY q.1 q.2) - half < 0 ∨ span < v (.laneY q.1 q.2) + half,
      some (.laneY q.1 q.2, .geometry 5)),
    (laneIndices d).map fun q => (2 ≤ q.2 ∧ v (.laneY q.1 q.2) - v (.laneY q.1 (q.2 - 1)) ≤ 2 * half,
      some (.laneY q.1 q.2, .geometry 6)),
    [(v .zMax < v .saddleHeight + v .upperSeat + 2 * v .dmax + v .tongHang + v .clearance,
      some (.zMax, .geometry 7))] ]

theorem finds_rows {table : Nat → Prop × ImageFail} {check : Nat → ImageFail} {n : Nat}
    (h : ∀ r, 1 ≤ r → Finds [table r] (check r)) : Finds ((upTo n).map table) ((upTo n).findSome? check) := by
  rw [← List.flatMap_singleton' ((upTo n).map table), List.flatMap_map]
  exact finds_findSome fun r hr => h r (mem_upTo.mp hr).1

theorem finds_lanes {table : Nat × Nat → Prop × ImageFail} {check : Nat → Nat → ImageFail}
    (h : ∀ r p, 1 ≤ p → Finds [table (r, p)] (check r p)) : Finds ((laneIndices d).map table)
      ((upTo (draftRows d)).findSome? fun r => (upTo (draftLanes d r)).findSome? fun p => check r p) := by
  rw [laneIndices, List.map_flatMap]
  refine finds_findSome fun r _ => ?_
  rw [List.map_map]
  exact finds_rows fun p hp => h r p hp

theorem finds_geometryFail : Finds (geometryRows d) (geometryFail d) := by
  have sized : (upTo (draftRows d)).map .rowCentre ++ (upTo (draftRows d)).map .rowHalf ++ draftLaneParams d
      ++ storeParams = (sizedTable d).map (·.1) := by
    simp only [sizedTable, draftLaneParams_eq, List.flatten_cons, List.map_append, List.map_map, Function.comp_def,
      List.append_assoc]
    rfl
  have inside (a b c e : Int) : a < b ∨ c < e ↔ decide (b ≤ a ∧ e ≤ c) = false := by
    rw [decide_eq_false_iff_not]
    omega
  have behind (k : Nat) (hk : 1 ≤ k) (a b : Int) : 2 ≤ k ∧ b ≤ a ↔ (k == 1 || decide (a < b)) = false := by
    rw [Bool.or_eq_false_iff, beq_eq_false_iff_ne, decide_eq_false_iff_not]
    omega
  have most (a b : Int) : b < a ↔ decide (a ≤ b) = false := by
    rw [decide_eq_false_iff_not]
    omega
  unfold geometryFail
  dsimp only
  rw [sized]
  exact (finds_firstOutside bounds_sized).orElse fun _ => (finds_demand (most _ _)).orElse fun _ =>
    (finds_rows fun r _ => finds_demand (inside _ _ _ _)).orElse fun _ =>
    (finds_rows fun r hr => finds_demand (behind r hr _ _)).orElse fun _ =>
    (finds_lanes fun r p _ => finds_demand (inside _ _ _ _)).orElse fun _ =>
    (finds_lanes fun r p hp => finds_demand (behind p hp _ _)).orElse fun _ => (finds_demand (most _ _)).last

end
end Sys2Proof.Machine
end

section
/-! START's table of checks in full (R215), and the image the blocks take (R216). -/

namespace Sys2Proof.Machine

section
variable {d : Draft}

/-! ## The whole table (R215) -/

/-- The rows of START's checks, in their order. -/
def imageRows (d : Draft) : List (Prop × ImageFail) :=
  let v := draftVal d
  List.flatten [ shapeTable d, (requiredBehindShape d).map (missingRow d), rangeRows d,
    [ (v .runwayLength ≤ v .leftExtent + v .rightExtent, some (.leftExtent, .extents)),
      (v .zMax ≤ v .zMin, some (.zMin, .zRange)),
      (v .travelHeight ≤ v .zMin ∨ v .zMax < v .travelHeight, some (.travelHeight, .travelHeight)) ],
    (upTo (draftZones d)).flatMap (zoneRows d), geometryRows d ]

/-- START's validation is its table: the shape stands where the rows behind it are read. -/
theorem finds_imageFail (d : Draft) : Finds (imageRows d) (imageFail d) := by
  have least (a b : Int) : b ≤ a ↔ decide (a < b) = false := by
    rw [decide_eq_false_iff_not, not_lt]
  refine finds_shapeFail.orElse fun shape => ?_
  have shaped := shaped_of_shapeFail shape
  rw [firstMissing_required shaped]
  refine finds_firstMissing.orElse fun _ => finds_ranges.orElse fun _ => (finds_demand (least _ _)).orElse fun _ =>
    (finds_demand (least _ _)).orElse fun _ => (finds_demand ?_).orElse fun _ =>
    (finds_findSome fun z hz => finds_zoneFail shaped.coded hz).orElse fun _ => finds_geometryFail.last
  rw [decide_eq_false_iff_not]
  omega

/-! ## The image taken (R216) -/

theorem mem_buildImage_zones {z : Zone} : z ∈ (buildImage d).zones ↔ z.id ∈ upTo (draftZones d)
    ∧ z.x0 = draftVal d (.zoneXStart z.id) ∧ z.x1 = draftVal d (.zoneXEnd z.id) ∧ z.y0 = draftVal d (.zoneYStart z.id)
    ∧ z.y1 = draftVal d (.zoneYEnd z.id) ∧ z.ceiling = draftVal d (.zoneCeiling z.id)
    ∧ z.bay = (draftVal d (.zoneBay z.id)).toNat ∧ z.kind = draftKind d z.id := by
  simp only [buildImage, List.mem_map]
  constructor
  · rintro ⟨k, hk, rfl⟩
    exact ⟨hk, rfl, rfl, rfl, rfl, rfl, rfl, rfl⟩
  · obtain ⟨id, kind, x0, x1, y0, y1, ceiling, bay⟩ := z
    dsimp only
    rintro ⟨hk, rfl, rfl, rfl, rfl, rfl, rfl, rfl⟩
    exact ⟨id, hk, rfl⟩

/-- The kind of a zone by the value of its parameter; an unlisted one is taken as EXCLUSIVE. -/
theorem eq_draftKind_iff {k : ZoneKind} {z : Nat} : k = draftKind d z ↔
    let v := draftVal d (.zoneKind z)
    (v = 0 → k = .exclusive) ∧ (v = 1 → k = .truckBay) ∧ (v = 2 → k = .slow) ∧ (v = 3 → k = .noLoad)
      ∧ (v < 0 ∨ 3 < v → k = .exclusive) := by
  constructor
  · rintro rfl
    exact ⟨draftKind_of_code (k := .exclusive), draftKind_of_code (k := .truckBay), draftKind_of_code (k := .slow),
      draftKind_of_code (k := .noLoad),
      fun out => draftKind_of_uncoded (by omega)⟩
  · rintro ⟨exclusive, truckBay, slow, noLoad, uncoded⟩
    by_cases listed : 0 ≤ draftVal d (.zoneKind z) ∧ draftVal d (.zoneKind z) ≤ 3
    · rcases (by omega : draftVal d (.zoneKind z) = 0 ∨ draftVal d (.zoneKind z) = 1 ∨ draftVal d (.zoneKind z) = 2
          ∨ draftVal d (.zoneKind z) = 3) with e | e | e | e
      · exact (exclusive e).trans (draftKind_of_code (k := .exclusive) e).symm
      · exact (truckBay e).trans (draftKind_of_code (k := .truckBay) e).symm
      · exact (slow e).trans (draftKind_of_code (k := .slow) e).symm
      · exact (noLoad e).trans (draftKind_of_code (k := .noLoad) e).symm
    · exact (uncoded (by omega)).trans (draftKind_of_uncoded listed).symm

theorem buildImage_row {r : Nat} {row : Row} (h1 : 1 ≤ r) : (buildImage d).rows[r - 1]? = some row ↔
    r ≤ draftRows d ∧ row.centre = draftVal d (.rowCentre r) ∧ row.half = draftVal d (.rowHalf r)
      ∧ row.lanes = (upTo (draftLanes d r)).map fun p => draftVal d (.laneY r p) := by
  have built : (buildImage d).rows = (upTo (draftRows d)).map (buildRow d) := rfl
  rw [built, List.getElem?_map]
  by_cases hr : r ≤ draftRows d
  · rw [upTo_get _ _ (by omega), Nat.sub_add_cancel h1, Option.map_some, Option.some_inj, buildRow]
    obtain ⟨centre, half, lanes⟩ := row
    simp only [Row.mk.injEq, hr, true_and, eq_comm]
  · rw [List.getElem?_eq_none (by rw [upTo_length]; omega), Option.map_none]
    exact iff_of_false nofun fun h => hr h.1

end

/-! ## The obligation -/

/-- Settles O49: the checks are the rows of START's table in their order, and the image holds the draft's values. -/
theorem startChecksTheImageInOrder : Obligations.StartChecksTheImageInOrder := by
  refine ⟨fun d => ⟨?table, fun valid => ⟨imageFail_rowsFit valid, buildImage_zonesDistinct d⟩, ?image⟩,
    ?zones, ?rows, ?lanes, ?known⟩
  case table =>
    convert (finds_imageFail d).firstHolds using 1
    simp only [imageRows, shapeTable, rangeRows, geometryRows, List.flatten_cons, List.flatten_nil, List.append_nil,
      List.append_assoc]
    rfl
  case image =>
    refine ⟨fun z => ?_, fun r row h1 => buildImage_row h1, rfl, rfl, rfl, rfl, rfl⟩
    rw [mem_buildImage_zones, eq_draftKind_iff]
    rfl
  case zones =>
    intro z p hp
    fin_cases hp <;> exact decide_eq_true_iff
  case rows =>
    intro r p hp
    fin_cases hp <;> exact decide_eq_true_iff
  case lanes => exact fun r k => decide_eq_true_iff
  case known =>
    intro p outside
    cases p with
    | zoneKind z => exact .inl ⟨z, by simp⟩
    | zoneXStart z => exact .inl ⟨z, by simp⟩
    | zoneXEnd z => exact .inl ⟨z, by simp⟩
    | zoneYStart z => exact .inl ⟨z, by simp⟩
    | zoneYEnd z => exact .inl ⟨z, by simp⟩
    | zoneCeiling z => exact .inl ⟨z, by simp⟩
    | zoneBay z => exact .inl ⟨z, by simp⟩
    | rowCentre r => exact .inr (.inl ⟨r, by simp⟩)
    | rowHalf r => exact .inr (.inl ⟨r, by simp⟩)
    | lowerCount r => exact .inr (.inl ⟨r, by simp⟩)
    | laneY r k => exact .inr (.inr ⟨r, k, rfl⟩)
    | _ => exact absurd outside nofun

end Sys2Proof.Machine
end

section
/-! Own claims that are not HELD, behind a change of the peers' copies (R81, R83, R87). -/

namespace Sys2Proof.Machine

/-! ## One entry tested -/

/-- What the test of an entry makes of it: an ASKING one yields to a better peer claim, a WAITING one is asked again
where none stands (R81, R83). -/
def retested (u : State) (c : OwnClaim) : OwnClaim :=
  match c.state, betterClaim u c.target c.prio with
  | .asking, true => { c with state := .waiting }
  | .waiting, false => { c with state := .asking, askedAt := u.now }
  | _, _ => c

/-- The entry `c` has become `d`: the change is raised as an event, and its RELEASE or CLAIM is queued where `room` more
frames would have found room. -/
structure Became (room : Nat) (s u : State) (c d : OwnClaim) : Prop where
  claim : findClaim u c.target = some d
  raised : d.state ≠ c.state → Raised s u (.claimState c.target (some d.state))
  released : s.rlc.queue.length + room < 16 → c.state = .asking → d.state = .waiting →
    .fixed (.release c.target) ∈ u.rlc.queue
  asked : s.rlc.queue.length + room < 16 → c.state = .waiting → d.state = .asking →
    .fixed (.claim c.target c.prio) ∈ u.rlc.queue

section
variable {s t u v : State} {c d : OwnClaim} {q : Target} {n m : Nat}

theorem Became.after (h : Became n s t c d) (k : Beside c.target m t u) : Became n s u c d where
  claim := k.claim.trans h.claim
  raised changed := (h.raised changed).after k.logs
  released room was now := k.queue.subset (h.released room was now)
  asked room was now := k.queue.subset (h.asked room was now)

theorem Became.before (h : Became n t u c d) (k : Beside c.target m s t) : Became (n + m) s u c d where
  claim := h.claim
  raised changed := (h.raised changed).before k.logs
  released room := h.released (by have := k.length; omega)
  asked room := h.asked (by have := k.length; omega)

theorem Became.unchanged (found : findClaim s c.target = some c) : Became 0 s s c c where
  claim := found
  raised changed := absurd rfl changed
  released _ was now := absurd (was.symm.trans now) (by decide)
  asked _ was now := absurd (was.symm.trans now) (by decide)

theorem claimChanged_raised (s : State) (q : Target) (st : ClaimState) (left : Bool) (hs : List Holder) :
    Raised s (claimChanged s q st left hs) (.claimState q (some st)) := by
  refine ⟨s.compute, compute_logs s, ?_⟩
  rw [claimChanged, handChange_eq]
  exact .refl _

/-- An entry changed with a frame of its own: the entry, the event and the frame. -/
theorem entry_changed {f : OwnClaim → OwnClaim} (hf : ∀ c, (f c).target = c.target) (b : FrameBody)
    (found : findClaim s c.target = some c) (st : ClaimState) (left : Bool) (hs : List Holder) :
    let u := claimChanged ((putClaim s c.target f).offer (.fixed b)) c.target st left hs
    findClaim u c.target = some (f c) ∧ Raised s u (.claimState c.target (some st))
      ∧ (s.rlc.queue.length < 16 → .fixed b ∈ u.rlc.queue) := by
  let w := putClaim s c.target f
  have offered : Beside c.target 1 w (w.offer (.fixed b)) := offer_beside w _
  have changed := claimChanged_beside (t := c.target) (w.offer (.fixed b)) c.target st left hs
  refine ⟨(changed.claim.trans offered.claim).trans (findClaim_putClaim_same hf found),
    (claimChanged_raised _ _ _ _ _).before (t := w.offer (.fixed b)) offered.logs, fun room => changed.queue.subset ?_⟩
  exact offer_mem w _ (.inl room)

theorem retestClaim_became (found : findClaim s c.target = some c) (free : c.state ≠ .held) :
    Became 0 s (retestClaim s c.target) c (retested s c) := by
  unfold retestClaim retested
  simp only [found]
  cases state : c.state with
  | held => exact absurd state free
  | asking =>
    cases better : betterClaim s c.target c.prio with
    | false => exact .unchanged found
    | true =>
      have yields : yieldClaim s c = claimChanged ((putClaim s c.target fun c => { c with state := .waiting }).offer
          (.fixed (.release c.target))) c.target .waiting false c.holders := by
        simp only [yieldClaim, state]
        rfl
      obtain ⟨claim, raised, queued⟩ := entry_changed (f := fun c => { c with state := .waiting }) (fun _ => rfl)
        (.release c.target) found .waiting false c.holders
      rw [← yields] at claim raised queued
      exact ⟨claim, fun _ => raised, fun room _ _ => queued room,
        fun _ was _ => absurd (state.symm.trans was) (by decide)⟩
  | waiting =>
    cases better : betterClaim s c.target c.prio with
    | true => exact .unchanged found
    | false =>
      obtain ⟨claim, raised, queued⟩ := entry_changed (f := fun c => { c with state := .asking, askedAt := s.now })
        (fun _ => rfl) (.claim c.target c.prio) found .asking false c.holders
      exact ⟨claim, fun _ => raised, fun _ was _ => absurd (state.symm.trans was) (by decide),
        fun room _ _ => queued room⟩

/-! ## One entry among those tested (R87) -/

theorem HandOnFrame.retested (h : HandOnFrame t u) (c : OwnClaim) : retested u c = retested t c := by
  obtain ⟨serial, now, ptb, _⟩ := h
  have better : betterClaim u c.target c.prio = betterClaim t c.target c.prio := by
    rw [betterClaim, ptb, serial, betterClaim]
  simp only [Machine.retested, better, now]

/-- The entry `c` follows the copies as they stand in `u`. -/
def Follows (s u : State) (c : OwnClaim) : Prop := Became 5 s u c (retested u c)

/-- Among at most 6 targets tested, an entry that is not HELD becomes what its own test makes of it. -/
theorem retestClaims_follow {l : List Target} (nodup : l.Nodup) (h6 : l.length ≤ 6) (hl : c.target ∈ l)
    (free : c.state ≠ .held) (found : findClaim s c.target = some c) (before : Beside c.target 0 s v)
    (behind : Beside c.target 0 (l.foldl retestClaim v) u) (moves : Moves false (l.foldl retestClaim v) u) :
    Follows s u c := by
  obtain ⟨l1, l2, rfl⟩ := List.append_of_mem hl
  have h1 : c.target ∉ l1 := fun h => by
    have := List.disjoint_of_nodup_append nodup h
    simp at this
  have h2 : c.target ∉ l2 := (List.nodup_cons.mp (List.nodup_append.mp nodup).2.1).1
  rw [List.foldl_append, List.foldl_cons] at behind moves
  let w := l1.foldl retestClaim v
  have reached : Beside c.target l1.length s w :=
    (before.trans (retestClaim_testsHeld.foldl_beside h1 v)).mono (by omega)
  have few : l1.length ≤ 5 := by
    simp only [List.length_append, List.length_cons] at h6
    omega
  have own := retestClaim_became (reached.claim.trans found) free
  have later := (retestClaim_testsHeld.foldl_beside h2 (retestClaim w c.target)).trans behind
  have same : retested u c = retested w c := ((retestClaim_moves (cmd := false) (.refl w) c.target).trans
    ((Moves.foldl retestClaim_testsHeld.moves l2 (.refl _)).trans moves)).frame.retested c
  obtain ⟨claim, raised, released, asked⟩ := (own.before reached).after later
  rw [Follows, same]
  exact ⟨claim, raised, fun room => released (by omega), fun room => asked (by omega)⟩

/-- Every entry that is not HELD follows where a record has changed in RUNNING (R87). -/
theorem recordChanged_follows (hn : t.rlc.nodeState = .running) (before : Apart s t) (claims : ClaimsOk s.clu)
    (hc : c ∈ s.clu.claims) (free : c.state ≠ .held) : Follows s (recordChanged t) c := by
  rw [recordChanged_running hn, before.clu]
  obtain ⟨h6, nodup⟩ := claims
  exact retestClaims_follow nodup (by rw [List.length_map]; exact h6) (List.mem_map.mpr ⟨c, hc, rfl⟩) free
    (findClaim_of_mem ⟨h6, nodup⟩ hc) (before.trans (compute_apart t)).beside (sourceAgain_apart _).beside
    (sourceAgain_moves (.refl _))

theorem entryChanged_running (hn : s.rlc.nodeState = .running) (q : Target) :
    entryChanged s q = sourceAgain (retestClaim s q) := by
  rw [entryChanged, if_pos hn]

/-- The entry on the target of one changed copy entry follows, and the others stay (R87). -/
theorem entryChanged_follows (hn : t.rlc.nodeState = .running) (before : Apart s t) (claims : ClaimsOk s.clu)
    (hc : c ∈ s.clu.claims) :
    (c.state ≠ .held → Follows s (entryChanged t c.target) c)
      ∧ ∀ q, c.target ≠ q → findClaim (entryChanged t q) c.target = some c := by
  have found := findClaim_of_mem claims hc
  refine ⟨fun free => ?_, fun q other => ?_⟩
  · rw [entryChanged_running hn]
    exact retestClaims_follow (l := [c.target]) (List.nodup_singleton _) (by simp) (List.mem_singleton_self _) free
      found before.beside (sourceAgain_apart _).beside (sourceAgain_moves (.refl _))
  · rw [entryChanged_running hn]
    exact ((before.beside.trans (retestClaim_beside t other.symm)).trans (sourceAgain_apart _).beside).claim.trans found

/-! ## The frames and the timer that change a copy (R38, R40) -/

/-- What the own claims come to behind a CLAIM or RELEASE on a target from a known peer. -/
def FollowsFrame (s u : State) (p : Peer) (q : Target) : Prop :=
  (∀ c ∈ s.clu.claims, c.state ≠ .held → (c.target = q ∨ p.liveness ≠ .live) → Follows s u c)
    ∧ ∀ c ∈ s.clu.claims, c.target ≠ q → p.liveness = .live → findClaim u c.target = some c

theorem copyFrame_follows {p r : Peer} (hn : s.rlc.nodeState = .running) (before : Apart s t) (claims : ClaimsOk s.clu)
    (q : Target) : FollowsFrame s (copyFrame t q p r) p q := by
  have put : Apart s (putPeer t r) := before.trans ⟨rfl, rfl, rfl, rfl, rfl, List.prefix_rfl, .refl _⟩
  have running : (putPeer t r).rlc.nodeState = .running := put.rlc ▸ hn
  unfold copyFrame
  by_cases live : p.liveness = .live
  · rw [if_pos live]
    refine ⟨fun c hc free aimed => ?_, fun c hc other _ => (entryChanged_follows running put claims hc).2 q other⟩
    obtain rfl := aimed.resolve_right (not_not.mpr live)
    exact (entryChanged_follows running put claims hc).1 free
  · rw [if_neg live]
    exact ⟨fun c hc free _ => recordChanged_follows running put claims hc free, fun _ _ _ h => absurd h live⟩

theorem reportBack_apart (s : State) (p : Peer) : Apart s (reportBack s p) := by
  unfold reportBack
  split
  · exact .refl s
  · exact emit_apart s _

theorem takeClaim_follows {k serial prio : Nat} {p : Peer} (hn : s.rlc.nodeState = .running) (claims : ClaimsOk s.clu)
    (known : knownPeer s k serial = some p) (q : Target) : FollowsFrame s (takeClaim s k serial q prio) p q := by
  simp only [takeClaim, known]
  split
  · exact copyFrame_follows hn (reportBack_apart s p) claims q
  · exact copyFrame_follows hn ((reportBack_apart s p).trans (emit_apart _ _)) claims q

theorem takeRelease_follows {k serial : Nat} {p : Peer} (hn : s.rlc.nodeState = .running) (claims : ClaimsOk s.clu)
    (known : knownPeer s k serial = some p) (q : Target) : FollowsFrame s (takeRelease s k serial q) p q := by
  simp only [takeRelease, known]
  exact copyFrame_follows hn (reportBack_apart s p) claims q

theorem rxBeacon_follows {k : Nat} {p : Peer} {b : Beacon} (hn : s.rlc.nodeState = .running) (claims : ClaimsOk s.clu) :
    let u := recordChanged (beaconTaken s p k p.serial b)
    HandOnFrame { s with ptb := u.ptb, smu := u.smu } u ∧ ∀ c ∈ s.clu.claims, c.state ≠ .held → Follows s u c := by
  obtain ⟨recorded, apart⟩ := beaconTaken_apart s p k p.serial b
  have changed := (recordChanged_moves (cmd := false) (.refl (beaconTaken s p k p.serial b))).frame
  refine ⟨?_, fun c hc free => recordChanged_follows (apart.rlc ▸ hn) apart claims hc free⟩
  rw [changed.ptb, changed.smu]
  exact recorded.trans changed

theorem changeLiveness_follows {p : Peer} {l : Liveness} {e : Event} (hn : s.rlc.nodeState = .running)
    (claims : ClaimsOk s.clu) (now : Nat) :
    let u := changeLiveness (s.reach now) p l e
    HandOnFrame { s with now := u.now, ptb := u.ptb } u ∧ ∀ c ∈ s.clu.claims, c.state ≠ .held → Follows s u c := by
  have changed := (changeLiveness_moves (s.reach now) p l e).frame
  have put : Apart s (putPeer (s.reach now) { p with liveness := l }) :=
    ⟨rfl, rfl, rfl, rfl, rfl, List.prefix_rfl, .refl _⟩
  refine ⟨?_, fun c hc free => recordChanged_follows (by exact hn) (put.trans (emit_apart _ _)) claims hc free⟩
  rw [changed.now, changed.ptb]
  exact changed

end

/-! ## The obligation -/

/-- Settles O28: each entry by its own test, which the tests of the others leave alone, with each command's frame. -/
theorem claimsYieldAndAreAskedAgain : Obligations.ClaimsYieldAndAreAskedAgain := by
  have stated {s u : State} {c : OwnClaim} (h : Follows s u c) :
      findClaim u c.target = some (retested u c)
        ∧ ((retested u c).state ≠ c.state → Reports s u (.claimState c.target (some (retested u c).state)))
        ∧ (s.rlc.queue.length ≤ 10 → c.state = .asking → (retested u c).state = .waiting →
            .fixed (.release c.target) ∈ u.rlc.queue)
        ∧ (s.rlc.queue.length ≤ 10 → c.state = .waiting → (retested u c).state = .asking →
            .fixed (.claim c.target c.prio) ∈ u.rlc.queue) :=
    ⟨h.claim, fun changed => (h.raised changed).reports, fun room => h.released (by omega),
      fun room => h.asked (by omega)⟩
  intro s n p hn claims hp
  have known : knownPeer s n p.serial = some p := knownPeer_eq_some.mpr ⟨hp, rfl⟩
  refine ⟨fun t prio hr => ⟨_, execRxClaim_of hr, (takeClaim_recorded known).frame, ?_⟩,
    fun t hr => ⟨_, execRxRelease_of hr, (takeRelease_recorded known).frame, ?_⟩, fun b hr => ?_, fun stale => ?_⟩
  · obtain ⟨aimed, others⟩ := takeClaim_follows (prio := prio) hn claims known t
    exact ⟨fun c hc free h => stated (aimed c hc free h), others⟩
  · obtain ⟨aimed, others⟩ := takeRelease_follows hn claims known t
    exact ⟨fun c hc free h => stated (aimed c hc free h), others⟩
  · obtain ⟨frame, all⟩ := rxBeacon_follows (k := n) (p := p) (b := b) hn claims
    exact ⟨_, rxBeacon_known hp hr, frame, fun c hc free => stated (all c hc free)⟩
  · obtain ⟨frame, all⟩ := changeLiveness_follows (p := p) (l := .lost) (e := .peerLost n) hn claims
      (p.heard + lostLimit p + 1)
    exact ⟨_, execPeerLost_of (by rw [hn]; decide) hp stale, frame, fun c hc free => stated (all c hc free)⟩

end Sys2Proof.Machine
end

section
/-! Truck requests: the ask for the bay's claim (R78, R80), the answers of R156, and the timeout (R160). -/

namespace Sys2Proof.Machine

/-! ## The ask for a claim (R78, R80) -/

section
variable {s : State} {c d : OwnClaim} {q t : Target} {prio : Nat} {k : Holder}

theorem findClaim_claimChanged (s : State) (q t : Target) (st : ClaimState) (left : Bool) (hs : List Holder) :
    findClaim (claimChanged s q st left hs) t = findClaim s t := by
  rw [findClaim, claimChanged_claims, findClaim]

theorem findClaim_offer (s : State) (i : TxItem) (t : Target) : findClaim (s.offer i) t = findClaim s t := by
  rw [findClaim, offer_clu, findClaim]

theorem addClaim_beside (s : State) (hc : c.target ≠ t) : Beside t 0 s (addClaim s c) := by
  refine ⟨?_, fun _ _ => Iff.rfl, fun _ _ _ => Iff.rfl, List.prefix_rfl, List.prefix_rfl, le_rfl, fun _ => id, rfl, rfl,
    rfl, .refl _⟩
  simp [findClaim, addClaim, List.find?_append, hc]

theorem findClaim_addClaim (absent : findClaim s c.target = none) : findClaim (addClaim s c) c.target = some c := by
  rw [findClaim] at absent
  simp [findClaim, addClaim, List.find?_append, absent]

theorem newClaim_beside (s : State) (hq : q ≠ t) (prio : Nat) (k : Holder) : Beside t 1 s (newClaim s q prio k).1 := by
  have added (st : ClaimState) : Beside t 0 s (addClaim s (.fresh q prio s.now k st)) := addClaim_beside s hq
  unfold newClaim
  split
  · exact ((added .waiting).trans (claimChanged_beside _ _ _ _ _)).mono (Nat.zero_le 1)
  · exact ((added .asking).trans (offer_beside _ _)).trans (claimChanged_beside _ _ _ _ _)

theorem raisePrio_beside (s : State) (hc : c.target ≠ t) (prio : Nat) : Beside t 1 s (raisePrio s c prio) := by
  have raised : Beside t 0 s (putClaim s c.target fun c => { c with prio := prio }) :=
    putClaim_beside s (fun _ => rfl) hc
  have anew : Beside t 0 s (putClaim s c.target fun c => { c with prio := prio, askedAt := s.now }) :=
    putClaim_beside s (fun _ => rfl) hc
  unfold raisePrio
  cases c.state with
  | held => exact (raised.trans (claimChanged_beside _ _ _ _ _)).mono (Nat.zero_le 1)
  | asking => exact (anew.trans (offer_beside _ _)).trans (claimChanged_beside _ _ _ _ _)
  | waiting => exact (raised.trans (claimChanged_beside _ _ _ _ _)).trans (retestClaim_beside _ hc)

/-- An ask lies beside the claims on the other targets. -/
theorem ask_beside (s : State) (hq : q ≠ t) (prio : Nat) (k : Holder) : Beside t 1 s (ask s q prio k).1 := by
  have idle := (Beside.refl (t := t) s).mono (Nat.zero_le 1)
  unfold ask
  split
  · exact idle
  split
  · exact idle
  split
  · rename_i c found
    have joined : Beside t 0 s (putClaim s q fun c => { c with holders := c.holders ++ [k] }) :=
      putClaim_beside s (fun _ => rfl) hq
    split
    · exact idle
    dsimp only
    split
    · exact joined.trans (raisePrio_beside _ (findClaim_target found ▸ hq) prio)
    · exact joined.mono (Nat.zero_le 1)
  · split
    · exact idle
    · exact newClaim_beside s hq prio k

theorem ask_moc (s : State) (q : Target) (prio : Nat) (k : Holder) : (ask s q prio k).1.moc = s.moc := by
  obtain ⟨other, differs⟩ := exists_other_target q
  exact (ask_beside s differs prio k).moc

/-- A new entry has the asked priority and its holder, and is not HELD (R80). -/
theorem newClaim_found (absent : findClaim s t = none) (prio : Nat) (k : Holder) :
    ∃ st, st ≠ .held ∧ findClaim (newClaim s t prio k).1 t = some (.fresh t prio s.now k st) := by
  have added (st : ClaimState) :
      findClaim (addClaim s (.fresh t prio s.now k st)) t = some (.fresh t prio s.now k st) :=
    findClaim_addClaim (c := .fresh t prio s.now k st) absent
  unfold newClaim
  split
  · exact ⟨.waiting, by decide, (findClaim_claimChanged _ _ _ _ _ _).trans (added .waiting)⟩
  · refine ⟨.asking, by decide, ?_⟩
    rw [findClaim_claimChanged, findClaim_offer]
    exact added .asking

theorem retested_holders (s : State) (c : OwnClaim) : (retested s c).holders = c.holders := by
  unfold retested
  split <;> rfl

/-- A raised priority leaves the holders of the entry (R78). -/
theorem raisePrio_holders (found : findClaim s c.target = some d) (same : d.state = c.state) (prio : Nat) :
    ∃ e, findClaim (raisePrio s c prio) c.target = some e ∧ e.holders = d.holders := by
  have target := findClaim_target found
  unfold raisePrio
  cases state : c.state with
  | held =>
    refine ⟨{ d with prio := prio }, (findClaim_claimChanged _ _ _ _ _ _).trans ?_, rfl⟩
    exact findClaim_putClaim_same (f := fun c => { c with prio := prio }) (fun _ => rfl) found
  | asking =>
    refine ⟨{ d with prio := prio, askedAt := s.now }, ?_, rfl⟩
    rw [findClaim_claimChanged, findClaim_offer]
    exact findClaim_putClaim_same (f := fun c => { c with prio := prio, askedAt := s.now }) (fun _ => rfl) found
  | waiting =>
    let e : OwnClaim := { d with prio := prio }
    let w := putClaim s c.target fun c => { c with prio := prio }
    have put : findClaim w c.target = some e :=
      findClaim_putClaim_same (f := fun c => { c with prio := prio }) (fun _ => rfl) found
    have told := (findClaim_claimChanged w c.target c.target .waiting false c.holders).trans put
    have tested := retestClaim_became (c := e) (target ▸ told) (by rw [show e.state = c.state from same, state]; decide)
    have claim := tested.claim
    rw [show e.target = c.target from target] at claim
    exact ⟨_, claim, retested_holders _ e⟩

/-- An ask that is served gives the target an entry with the asking holder; a new entry has the asked priority and is
not HELD (R78, R80). -/
theorem ask_found (hn : s.rlc.nodeState = .running) (allowed : askable s t = true)
    (room : ¬ (findClaim s t = none ∧ 6 ≤ s.clu.claims.length)) (prio : Nat) (k : Holder) :
    ∃ c, findClaim (ask s t prio k).1 t = some c ∧ k ∈ c.holders
      ∧ (findClaim s t = none → c.prio = prio ∧ c.state ≠ .held) := by
  unfold ask
  rw [if_neg (not_not.mpr hn), if_neg (by rw [allowed]; decide)]
  cases found : findClaim s t with
  | none =>
    have few : ¬ 6 ≤ s.clu.claims.length := fun h => room ⟨found, h⟩
    obtain ⟨st, free, entry⟩ := newClaim_found found prio k
    simp only [if_neg few]
    exact ⟨_, entry, List.mem_singleton_self k, fun _ => ⟨rfl, free⟩⟩
  | some c =>
    obtain rfl := findClaim_target found
    by_cases holds : c.holders.contains k = true
    · simp only [if_pos holds]
      exact ⟨c, found, List.contains_iff_mem.mp holds, nofun⟩
    · have joined : findClaim (putClaim s c.target fun c => { c with holders := c.holders ++ [k] }) c.target
          = some { c with holders := c.holders ++ [k] } :=
        findClaim_putClaim_same (f := fun c => { c with holders := c.holders ++ [k] }) (fun _ => rfl) found
      have behind : k ∈ c.holders ++ [k] := List.mem_append_right _ (List.mem_singleton_self k)
      simp only [if_neg holds]
      by_cases higher : c.prio < prio
      · simp only [if_pos higher]
        obtain ⟨e, entry, holders⟩ := raisePrio_holders joined rfl prio
        exact ⟨e, entry, holders ▸ behind, nofun⟩
      · simp only [if_neg higher]
        exact ⟨_, joined, behind, nofun⟩

end

/-! ## The requests (R156) -/

/-- The truck request of a kind for a bay. -/
def truckRequest (bay : Nat) : TruckReqKind → Request
  | .arrive d => .truckArrive bay d
  | .ready => .truckReady bay
  | .hold => .truckHold bay
  | .depart => .truckDepart bay

section
variable {s : State} {tag : ReqTag} {r : Request} {bay : Nat} {k : TruckReqKind} {img : Image} {zn : Zone}

theorem exec_truckRequest (straps : Straps) (h : TakesNow s tag (truckRequest bay k))
    (hn : s.rlc.nodeState = .running) : exec (commandFor (reqKind (truckRequest bay k)) straps) s
      = .next (State.finish (serveTruck (dropRequest s) tag (truckRequest bay k) bay k)) := by
  cases k with
  | arrive d => exact request_takesNow h (hn ▸ rfl) _
  | ready => exact request_takesNow h (hn ▸ rfl) _
  | hold => exact request_takesNow h (hn ▸ rfl) _
  | depart => exact request_takesNow h (hn ▸ rfl) _

theorem serveTruck_noBay (h : s.cpt.image = none ∨ ∃ img, s.cpt.image = some img ∧ bayZone img bay = none) :
    serveTruck s tag r bay k = answer s tag r .badArg .argument .none := by
  have unbound : (s.cpt.image.bind fun img => bayTarget img bay) = none := by
    rcases h with image | ⟨img, image, zone⟩
    · rw [image]
      rfl
    · rw [image, Option.bind_some, bayTarget, zone]
      rfl
  rw [serveTruck, unbound]

/-- A truck request of a bay with a zone by the first test of R156 that fails. -/
theorem serveTruck_cases (image : s.cpt.image = some img) (zone : bayZone img bay = some zn) :
    let stops := k = .depart ∧ usesBay s.moc bay = true
    let full := findClaim s (.zone zn.id) = none ∧ 6 ≤ s.clu.claims.length
    (s.tbu.requests.get bay ≠ none → serveTruck s tag r bay k = answer s tag r .busy .none .none)
      ∧ (s.tbu.requests.get bay = none → stops → serveTruck s tag r bay k = answer s tag r .refused .loadActive .none)
      ∧ (s.tbu.requests.get bay = none → ¬ stops → full →
          serveTruck s tag r bay k = answer s tag r .refused .claimListFull .none)
      ∧ (s.tbu.requests.get bay = none → ¬ stops → ¬ full →
          serveTruck s tag r bay k = acceptTruckReq (answer s tag r .accepted .none .none) (.zone zn.id) bay k) := by
  have target : (s.cpt.image.bind fun img => bayTarget img bay) = some (.zone zn.id) := by
    rw [image, Option.bind_some, bayTarget, zone]
    rfl
  have full_iff : askFull s (.zone zn.id) = true ↔ findClaim s (.zone zn.id) = none ∧ 6 ≤ s.clu.claims.length := by
    rw [askFull, Bool.and_eq_true, Option.isNone_iff_eq_none, decide_eq_true_iff]
  have free (h : s.tbu.requests.get bay = none) : ¬ (s.tbu.requests.get bay).isSome = true := by simp [h]
  rw [serveTruck, target]
  dsimp only
  refine ⟨fun busy => if_pos (Option.isSome_iff_ne_none.mpr busy), fun idle stops => ?_, fun idle passes full => ?_,
    fun idle passes room => ?_⟩
  · rw [if_neg (free idle), if_pos stops]
  · rw [if_neg (free idle), if_neg passes, if_pos (full_iff.mpr full)]
  · rw [if_neg (free idle), if_neg passes, if_neg (mt full_iff.mp room)]

/-- A request of a bay kept pending from now (R156). -/
def keptPending (s : State) (bay : Nat) (k : TruckReqKind) : State := { s with tbu := { s.tbu with
  requests := s.tbu.requests.set bay (some { kind := k, acceptedAt := s.now, newer := false }) } }

/-- A request accepted: kept pending from now, with the bay's claim asked for the truck. -/
theorem acceptTruckReq_spec {t : Target} (hn : s.rlc.nodeState = .running) (allowed : askable s t = true)
    (room : ¬ (findClaim s t = none ∧ 6 ≤ s.clu.claims.length)) :
    let u := acceptTruckReq s t bay k
    HandOnFrame s u ∧ u.moc = s.moc
      ∧ u.tbu = { s.tbu with
          requests := s.tbu.requests.set bay (some { kind := k, acceptedAt := s.now, newer := false }) }
      ∧ ∃ c, findClaim u t = some c ∧ .truck bay ∈ c.holders
        ∧ (findClaim s t = none → c.prio = 7 ∧ c.state ≠ .held) := by
  let w := keptPending s bay k
  have kept : HandOnFrame s w := ⟨rfl, rfl, rfl, rfl, rfl, rfl, rfl, rfl, .inl rfl, rfl, rfl, rfl⟩
  have asked : Moves false w (acceptTruckReq s t bay k) := (ask_moves (.refl w) t 7 (.truck bay)).hand _
  exact ⟨kept.moves asked, ask_moc w t 7 (.truck bay), ask_tbu w t 7 (.truck bay),
    ask_found (s := w) hn allowed room 7 (.truck bay)⟩

/-! ## The timeout (R160) -/

theorem exec_requestTimerExpiry {q : TruckReq} (h1 : 1 ≤ bay) (h4 : bay ≤ 4)
    (pending : s.tbu.requests.get bay = some q) : exec (.requestTimerExpiry bay) s
      = .next (State.finish (timeoutTruckReq (s.reach (q.acceptedAt + 5000)) bay q)) := by
  change execRequestTimerExpiry bay s = _
  rw [execRequestTimerExpiry, if_pos ⟨h1, h4⟩]
  simp only [pending]

/-- A request that fails is gone, and leaves the record as it was, also behind the hand-ons (R159 to R161). -/
theorem finish_failTruckReq (s : State) (bay : Nat) (why : TruckFail) :
    let u := State.finish (failTruckReq s bay why)
    HandOnFrame s u ∧ u.tbu.requests.get bay = none ∧ u.tbu.trucks.get bay = s.tbu.trucks.get bay := by
  have failed : Moves false s (failTruckReq s bay why) := failTruckReq_moves (.refl s) bay why
  have behind : Moves false (dropTruckReq s bay) (failTruckReq s bay why) :=
    (releaseBay_moves (.refl (dropTruckReq s bay)) bay).emit _
  have dropped : (dropTruckReq s bay).tbu.requests.get bay = none := perBay_get_set_same _ _
  exact ⟨(failed.trans (finish_moves _)).frame, (behind.trans (finish_moves _)).noRequest bay dropped⟩

end

/-! ## The obligation -/

/-- Settles O55: each request by the first test of R156 that fails or by its acceptance, the timeout by its failure. -/
theorem truckRequestsWaitForTheirClaim : Obligations.TruckRequestsWaitForTheirClaim := by
  refine ⟨fun s tag bay k straps => ?_, fun s bay q h1 h4 pending =>
    ⟨_, exec_requestTimerExpiry h1 h4 pending, finish_failTruckReq (s.reach (q.acceptedAt + 5000)) bay _⟩⟩
  intro r
  have named : r = truckRequest bay k := by cases k <;> rfl
  clear_value r
  subst named
  intro h hn
  have served := exec_truckRequest straps h hn
  refine ⟨fun unbound => .of_answer served (serveTruck_noBay unbound), fun img zn image zone => ?_⟩
  obtain ⟨busy, stopped, full, accepted⟩ := serveTruck_cases (s := dropRequest s) (tag := tag)
    (r := truckRequest bay k) (k := k) image zone
  refine ⟨fun h => .of_answer served (busy h), fun idle stops => .of_answer served (stopped idle stops),
    fun idle passes f => .of_answer served (full idle passes f), fun idle passes room allowed => ?_⟩
  rw [accepted idle passes room, answer_dropRequest] at served
  let v := afterAnswer s tag (truckRequest bay k) .accepted .none .none
  have askable : askable v (.zone zn.id) = true := by
    rw [Machine.askable, show v.cpt.image = some img from image]
    exact allowed
  obtain ⟨frame, moc, tbu, c, found, holds, new⟩ := acceptTruckReq_spec (s := v) (bay := bay) (k := k) hn askable room
  exact ⟨_, c, served, frame, moc, tbu, found, holds, new⟩

end Sys2Proof.Machine
end
